-- ==== Sys2Proof/Word.lean ====
section
/-! DEFINITION. Word: the widths the spec gives its values (00_scope.md R9, 10_state.md). -/

namespace Sys2Proof

/-- A byte of a frame, an id, an operand of a command word. -/
abbrev Byte := BitVec 8

/-- A host register and a command word (20_memory.md R61, 30_encoding.md R90). -/
abbrev Word := BitVec 32

/-- A radio timestamp, `TS_W` = 40 bits (10_state.md R37). -/
abbrev Stamp := BitVec 40

/-- An extended address (10_state.md R29). -/
abbrev ExtAddr := BitVec 64

end Sys2Proof
end

