-- ==== Sys2Proof/Config.lean ====
section
/-! DEFINITION. Config: the parameters an implementation fixes (00_scope.md R8), the inputs the
environment can give the machine, and the FREE VALUES the spec leaves open: opaque constants,
of which Lean can prove no value. -/

namespace Sys2Proof

/-- `TWR_PAIRING` (44_coordinator.md R213, 90_conflicts.md C2). -/
inductive TwrPairing where
  /-- The source's formulas as written; the default (R8). -/
  | literal
  /-- The pairing under which the formula cancels clock offset. -/
  | standard
deriving DecidableEq, Repr, Inhabited

/-- The parameters 00_scope.md R8 leaves to the implementation. They are fixed for a machine: no
step changes them. A statement over every state is a statement over every value of them. -/
structure Params where
  /-- `MAX_NODES`, 2 to 63, OPEN (decision D23). -/
  maxNodes : Nat
  /-- `TWR_PAIRING`, default LITERAL (decision D20). -/
  twrPairing : TwrPairing
  /-- `BLINK_LEN_TRIM`, 0 to 24, OPEN (decision D41). -/
  blinkLenTrim : Nat
  /-- `BLOCK_BASE`, a 4096-byte aligned bus address, OPEN (20_memory.md R79). -/
  blockBase : Nat
deriving DecidableEq, Repr, Inhabited

/-- The ranges of 00_scope.md R8. -/
abbrev Params.Legal (p : Params) : Prop :=
  2 ≤ p.maxNodes ∧ p.maxNodes ≤ 63 ∧ p.blinkLenTrim ≤ 24 ∧ p.blockBase % 4096 = 0

/-- `CAP` = MAX_NODES − 1 (00_scope.md R8). -/
def Params.cap (p : Params) : Nat := p.maxNodes - 1

/-- One host access, `MemRead(off, size)` or `MemWrite(off, size, v)` (20_memory.md R61); sizes other
than 4 exist as illegal accesses (R64). -/
inductive HostAccess where
  /-- A read of `size` bytes at `off`. -/
  | read (size off : Nat)
  /-- A write of `size` bytes at `off`. -/
  | write (size off : Nat) (v : Word)
deriving DecidableEq, Repr, Inhabited

/-- One radio event (60_exceptions.md R270 to R272). -/
inductive RadioEvent where
  /-- `EV_RX_GOOD(bytes, len, ts)`. -/
  | rxGood (bytes : List Byte) (len : BitVec 16) (ts : Stamp)
  /-- `EV_RX_ERROR`. -/
  | rxError
  /-- `EV_RX_TIMEOUT`. -/
  | rxTimeout
  /-- `EV_TX_DONE(ts)`. -/
  | txDone (ts : Stamp)
deriving DecidableEq, Repr, Inhabited

/-- One step of one agent (10_state.md R20), or the block reset input (70_reset_and_hazards.md R290). -/
inductive Action where
  /-- A host access at a block offset. -/
  | host (a : HostAccess)
  /-- A host access at an absolute bus address, which the block answers inside its 4096 bytes (20_memory.md R79). -/
  | bus (a : HostAccess)
  /-- The radio-event capture agent takes an event. -/
  | radio (e : RadioEvent)
  /-- The sequencer takes its step, if it has one. -/
  | sequencer
  /-- The backoff timer takes its step, if it has one. -/
  | backoffTimer
  /-- The block reset input. -/
  | blockReset
deriving DecidableEq, Repr, Inhabited

/-- FREE VALUE (log 1): the action that happens when `State.schedule` holds none. Which agent steps
next and which inputs come is open (93_implementation_defined.md I15, I16, I17). DESIGN CHOICE (log 1, log 17), unsafe: one
function for every machine, so two nodes with empty schedules and equal `envTick` take the same action. -/
opaque Config.environment : Nat → Action

/-- FREE VALUE (log 3): the raw draw behind the blink delay of 45_responder.md R247, brought into
[BLINK_DLY_MIN, BLINK_DLY_MAX] by `Machine.blinkDelay`. DESIGN CHOICE (log 3, log 17), unsafe: one function for every machine,
so two nodes with equal `draws` draw the same raw delay. -/
opaque Config.blinkDraw : Nat → Nat

end Sys2Proof
end

