-- ==== Sys2Proof/Machine/State.lean ====
section
/-! DEFINITION. Machine/State: every piece of state 10_state.md gives the block, as plain data, and its
value after reset (10_state.md R44). INVENTORY.md lists each with its rule. The fields `params`,
`schedule`, `envTick`, `draws` and `readData` are the model's own (log 1 to 4), and so is `outBefore` (log 16). -/

namespace Sys2Proof.Machine

/-- Nothing stops DSTWR-RC: it has no traps, only command refusals, round aborts and `ACCESS_ERR`
(60_exceptions.md, opening), and those are next states. So no step raises a fault. Safe: a machine
that never stops hides no behaviour. -/
inductive Fault where
deriving DecidableEq, Repr

/-- Why the MODEL (not the block) has no answer. -/
inductive Refusal where
  /-- Raised by `exec` for an instruction without a meaning. No arm of this model raises it. Safe:
  the run stops. -/
  | notModelled (mnemonic : String)
deriving DecidableEq, Repr

/-- `CTRL.ROLE` (10_state.md R21). The reserved value 3 is never stored. -/
inductive Role where
  /-- 0 NONE. -/
  | none
  /-- 1 COORD. -/
  | coord
  /-- 2 RESP. -/
  | resp
deriving DecidableEq, Repr

/-- `STATUS.COORD_STATE` (10_state.md R23, 44_coordinator.md R191). -/
inductive CoordState where
  /-- 0 IDLE. -/
  | idle
  /-- 1 AWAIT_ACKS. -/
  | awaitAcks
  /-- 2 AWAIT_FINALS. -/
  | awaitFinals
  /-- 3 COMPLETE. -/
  | complete
deriving DecidableEq, Repr

/-- `STATUS.RESP_PHASE` (10_state.md R23). -/
inductive RespPhase where
  /-- 0 POLL phase. -/
  | poll
  /-- 1 RANGE phase. -/
  | range
deriving DecidableEq, Repr

/-- `STATUS.TX_KIND` (10_state.md R23, R39). -/
inductive TxKind where
  /-- 0 NONE. -/
  | none
  /-- 1 POLL. -/
  | poll
  /-- 2 RANGE. -/
  | range
  /-- 3 ACK. -/
  | ack
  /-- 4 FINAL. -/
  | final
  /-- 5 BLINK. -/
  | blink
  /-- 6 CONFIG. -/
  | config
  /-- 7 HOST. -/
  | host
deriving DecidableEq, Repr

/-- `STATUS.ERR_CAUSE` (10_state.md R23). -/
inductive ErrCause where
  /-- 0 rx-error. -/
  | rxError
  /-- 1 rx-timeout. -/
  | rxTimeout
deriving DecidableEq, Repr

/-- `CMD_STATUS.ERR`, the refusal codes (60_exceptions.md R261). Codes 6 to 15 are never produced. -/
inductive ErrCode where
  /-- 0 NONE: the command executed. -/
  | none
  /-- 1 ILLEGAL_OPCODE. -/
  | illegalOpcode
  /-- 2 RESERVED_FIELD. -/
  | reservedField
  /-- 3 WRONG_ROLE. -/
  | wrongRole
  /-- 4 BUSY. -/
  | busy
  /-- 5 BAD_OPERAND. -/
  | badOperand
deriving DecidableEq, Repr

/-- `LAST_ABORT.CAUSE` (60_exceptions.md R265). Causes 12 to 255 are never produced. -/
inductive AbortCause where
  /-- 0 NONE, the reset value only. -/
  | none
  /-- 1 BLINK_RECEIVED. -/
  | blinkReceived
  /-- 2 SOURCE_MISMATCH. -/
  | sourceMismatch
  /-- 3 UNEXPECTED_CODE. -/
  | unexpectedCode
  /-- 4 RX_TIMEOUT. -/
  | rxTimeout
  /-- 5 RX_ERROR. -/
  | rxError
  /-- 6 IMPLAUSIBLE_DISTANCE. -/
  | implausibleDistance
  /-- 7 DISABLED. -/
  | disabled
  /-- 8 RESP_MISMATCH. -/
  | respMismatch
  /-- 9 RESP_RESET_FRAME. -/
  | respResetFrame
  /-- 10 RESP_UNEXPECTED_CODE. -/
  | respUnexpectedCode
  /-- 11 RESP_CONFIG. -/
  | respConfig
deriving DecidableEq, Repr

/-- The fields of `STATUS` (10_state.md R23). Reserved bits 31:16 hold nothing. -/
structure Status where
  /-- Bit 0, W1C. -/
  msgPending : Bool
  /-- Bit 1, W1C. -/
  errPending : Bool
  /-- Bit 2, read-only. -/
  txPending : Bool
  /-- Bit 3, W1C. -/
  roundDone : Bool
  /-- Bit 4, W1C. -/
  roundFail : Bool
  /-- Bit 5, W1C. -/
  discReq : Bool
  /-- Bit 6, W1C. -/
  overrun : Bool
  /-- Bit 7, W1C. -/
  accessErr : Bool
  /-- Bit 8, read-only. -/
  errCause : ErrCause
  /-- Bit 9, read-only. -/
  backoff : Bool
  /-- Bits 11:10, read-only. -/
  coordState : CoordState
  /-- Bit 12, read-only. -/
  respPhase : RespPhase
  /-- Bits 15:13, read-only. -/
  txKind : TxKind
deriving DecidableEq, Repr

/-- The fields of `CMD_STATUS` (10_state.md R25). -/
structure CmdStatus where
  /-- Bits 7:0. -/
  opc : Byte
  /-- Bit 8. -/
  ok : Bool
  /-- Bits 15:12. -/
  err : ErrCode
  /-- Bits 23:16. -/
  resId : Byte
deriving DecidableEq, Repr

/-- The argument registers (10_state.md R27). -/
structure Args where
  /-- `ARG_TS`. -/
  ts : Word
  /-- `ARG_F32`. -/
  f32 : Word
  /-- `ARG_TIME`. -/
  time : Stamp
  /-- `ARGX_A`. -/
  xA : ExtAddr
  /-- `ARGX_B`. -/
  xB : ExtAddr
deriving DecidableEq, Repr

/-- The payload of a ranging-config frame, and what `CFG_OUT` holds (30_encoding.md R103, 10_state.md R28). -/
structure ConfigTriple where
  /-- Initiator-id. -/
  init : Byte
  /-- Assigned-id. -/
  assigned : Byte
  /-- Total-count. -/
  total : Byte
deriving DecidableEq, Repr

/-- The session's assignment (10_state.md R30). `targets` lists the live entries of `TARGETS`;
`TGT_COUNT` is its length and every entry at or above it is 0 (log 5). -/
structure Session where
  /-- `OWN_ID`. -/
  ownId : Byte
  /-- `INIT_ID`. -/
  initId : Byte
  /-- `NODE_COUNT`. -/
  nodeCount : Byte
  /-- `WAIT_POS`. -/
  waitPos : Byte
  /-- `TARGETS[0..TGT_COUNT)`. -/
  targets : List Byte
deriving DecidableEq, Repr

/-- The round's data: `ROUND_POS` (10_state.md R30) and the per-target arrays of CAP entries (R36). -/
structure Round where
  /-- `ROUND_POS`. -/
  pos : Byte
  /-- `RT[0..CAP)`. -/
  rt : List Stamp
  /-- `RD1[0..CAP)`. -/
  rd1 : List Word
  /-- `RD2[0..CAP)`. -/
  rd2 : List Word
deriving DecidableEq, Repr

/-- The timing registers (10_state.md R32). -/
structure Timing where
  /-- `TURNAROUND`. -/
  turnaround : Word
  /-- `REPLY_DELAY`. -/
  replyDelay : Word
  /-- `RX_TIMEOUT`. -/
  rxTimeout : Word
  /-- `BACKOFF_CYC`. -/
  backoffCyc : Word
  /-- `BLINK_DLY_MIN`. -/
  blinkDlyMin : Word
  /-- `BLINK_DLY_MAX`. -/
  blinkDlyMax : Word
deriving DecidableEq, Repr

/-- `LAST_ABORT` (10_state.md R34). -/
structure LastAbort where
  /-- Bits 7:0. -/
  cause : AbortCause
  /-- Bits 15:8. -/
  evictId : Byte
  /-- Bit 16. -/
  evictV : Bool
deriving DecidableEq, Repr

/-- One registry entry (10_state.md R35). -/
structure Peer where
  /-- `ADDR`. -/
  addr : ExtAddr
  /-- `ID`. -/
  id : Byte
  /-- `DIST`, a binary32 pattern. -/
  dist : Word
deriving DecidableEq, Repr

/-- The timestamp registers (10_state.md R37). -/
structure Stamps where
  /-- `TX_TS`. -/
  tx : Stamp
  /-- `RX_TS`. -/
  rx : Stamp
  /-- `TX_POLL_TS`. -/
  txPoll : Stamp
  /-- `TX_RANGE_TS`. -/
  txRange : Stamp
  /-- `LAST_RX_TS`. -/
  lastRx : Stamp
  /-- `PHASE_RX_TS`. -/
  phaseRx : Stamp
  /-- `SCHED_TX_TS`. -/
  schedTx : Stamp
  /-- `ACK_TX_TS`. -/
  ackTx : Stamp
deriving DecidableEq, Repr

/-- When a transmission starts (60_exceptions.md R280). -/
inductive TxMode where
  /-- `IMM`. -/
  | imm
  /-- `DLY(t)`. -/
  | dly (t : Stamp)
deriving DecidableEq, Repr

/-- An entry of `OUT` (60_exceptions.md R280). -/
inductive RadioRequest where
  /-- `TX{frame, mode, rxAfter, rxTimeout}`. -/
  | tx (frame : List Byte) (mode : TxMode) (rxAfter : Bool) (rxTimeout : Word)
  /-- `RXON{timeout}`. -/
  | rxon (timeout : Word)
deriving DecidableEq, Repr

/-- The bytes of the two frame buffers at their window offsets: addresses strictly rising, no zero
byte listed (`Memory.Wf`). An unlisted byte reads 0, the reset content of 10_state.md R44. -/
abbrev Memory := List Host.Cell

/-- The state of one DSTWR-RC. -/
structure State where
  /-- The model's own: the machine's parameters (00_scope.md R8, log 2). -/
  params : Params
  /-- `CTRL.ENABLE` (10_state.md R21). -/
  enable : Bool
  /-- `CTRL.ROLE` (10_state.md R21). -/
  role : Role
  /-- `STATUS` (10_state.md R23). -/
  status : Status
  /-- `IRQ_EN` bits 7:0 (10_state.md R24). -/
  irqEn : Byte
  /-- `CMD_STATUS` (10_state.md R25). -/
  cmdStatus : CmdStatus
  /-- The argument registers (10_state.md R27). -/
  args : Args
  /-- `CFG_OUT` (10_state.md R28). -/
  cfgOut : ConfigTriple
  /-- `EUI` (10_state.md R29). -/
  eui : ExtAddr
  /-- The session's assignment (10_state.md R30). -/
  session : Session
  /-- `ROUND_POS`, `RT`, `RD1`, `RD2` (10_state.md R30, R36). -/
  round : Round
  /-- `SEQ` (10_state.md R31). -/
  seq : Byte
  /-- The timing registers (10_state.md R32). -/
  timing : Timing
  /-- `DIST_LIMIT` (10_state.md R33). -/
  distLimit : Word
  /-- `LAST_ABORT` (10_state.md R34). -/
  lastAbort : LastAbort
  /-- `REG[0..REG_COUNT)`; `REG_COUNT` is the length and every slot at or above it is all-zero
  (10_state.md R35, log 5). -/
  registry : List Peer
  /-- The timestamp registers (10_state.md R37). -/
  stamps : Stamps
  /-- `INBUF` and `CBUF` (10_state.md R38, R40). -/
  mem : Memory
  /-- `INLEN` (10_state.md R38). -/
  inlen : BitVec 16
  /-- `CLEN` (10_state.md R40). -/
  clen : Byte
  /-- `OUT`, oldest request first (10_state.md R46). -/
  out : List RadioRequest
  /-- The model's own: what the radio was asked for before the last block reset, oldest first; the block reset does not reset
  the radio (70_reset_and_hazards.md R292, log 16). -/
  outBefore : List RadioRequest
  /-- The model's own: the value the last host read returned (20_memory.md R61, log 4). -/
  readData : Word
  /-- The model's own: the actions to come, the next one first (log 1). -/
  schedule : List Action
  /-- The model's own: how many actions were drawn from `Config.environment` (log 1). -/
  envTick : Nat
  /-- The model's own: how many blink delays were drawn from `Config.blinkDraw` (log 3). -/
  draws : Nat
deriving DecidableEq, Repr

/-- The round's data after a round reset: position 0 and `cap` zeros in each array (43_session.md R171). -/
def Round.cleared (cap : Nat) : Round :=
  { pos := 0, rt := List.replicate cap 0, rd1 := List.replicate cap 0, rd2 := List.replicate cap 0 }

/-- The state after reset of a machine with parameters `p` (10_state.md R44): everything 0 but
`NODE_COUNT` = 1 and `DIST_LIMIT` = 1000. -/
def State.resetOf (p : Params) : State where
  params := p
  enable := false
  role := .none
  status :=
    { msgPending := false, errPending := false, txPending := false, roundDone := false,
      roundFail := false, discReq := false, overrun := false, accessErr := false,
      errCause := .rxError, backoff := false, coordState := .idle, respPhase := .poll,
      txKind := .none }
  irqEn := 0
  cmdStatus := { opc := 0, ok := false, err := .none, resId := 0 }
  args := { ts := 0, f32 := 0, time := 0, xA := 0, xB := 0 }
  cfgOut := { init := 0, assigned := 0, total := 0 }
  eui := 0
  session := { ownId := 0, initId := 0, nodeCount := 1, waitPos := 0, targets := [] }
  round := Round.cleared p.cap
  seq := 0
  timing :=
    { turnaround := 0, replyDelay := 0, rxTimeout := 0, backoffCyc := 0, blinkDlyMin := 0,
      blinkDlyMax := 0 }
  distLimit := 1000
  lastAbort := { cause := .none, evictId := 0, evictV := false }
  registry := []
  stamps :=
    { tx := 0, rx := 0, txPoll := 0, txRange := 0, lastRx := 0, phaseRx := 0, schedTx := 0,
      ackTx := 0 }
  mem := []
  inlen := 0
  clen := 0
  out := []
  outBefore := []
  readData := 0
  schedule := []
  envTick := 0
  draws := 0

/-- DESIGN CHOICE (log 2), unsafe: the parameters of `State.reset`, the values the vectors of
95_test_vectors.md use (00_scope.md R8). -/
def vectorParams : Params :=
  { maxNodes := 4, twrPairing := .literal, blinkLenTrim := 0, blockBase := 0 }

/-- The machine right after reset (10_state.md R44, 70_reset_and_hazards.md R290). -/
def State.reset : State := State.resetOf vectorParams

end Sys2Proof.Machine
end

