-- ==== Sys2Proof/Machine/Bytes.lean ====
section
/-! DEFINITION. Machine/Bytes: little-endian byte lists and 40-bit timestamp arithmetic
(00_scope.md R9, R10). -/

namespace Sys2Proof.Machine

/-- `LE_n(v)`: the `n` low bytes of `v`, least significant first (00_scope.md R10). -/
def leBytes : Nat → Nat → List Byte
  | 0, _ => []
  | n + 1, v => BitVec.ofNat 8 v :: leBytes n (v / 256)

/-- `le(s)`: the unsigned value of a little-endian byte list (00_scope.md R10). -/
def leValue : List Byte → Nat
  | [] => 0
  | b :: bs => b.toNat + 256 * leValue bs

/-- `LE_2(v)`. -/
def le2 (v : BitVec 16) : List Byte := leBytes 2 v.toNat

/-- `LE_4(v)`. -/
def le4 (v : Word) : List Byte := leBytes 4 v.toNat

/-- `LE_8(v)`. -/
def le8 (v : ExtAddr) : List Byte := leBytes 8 v.toNat

/-- The short address of a 1-byte id, `zext_16(x)` (30_encoding.md R110). -/
def shortOfId (x : Byte) : BitVec 16 := x.zeroExtend 16

/-- `a ⊖ b` = (a − b) mod 2^40 (00_scope.md R9). -/
def stampSub (a b : Stamp) : Stamp := a - b

/-- `a ⊕ b` = (a + b) mod 2^40 (00_scope.md R9). -/
def stampAdd (a b : Stamp) : Stamp := a + b

/-- A 32-bit register as a 40-bit timestamp operand; nothing is sign-extended (20_memory.md R80). -/
def stampOfWord (v : Word) : Stamp := v.zeroExtend 40

/-- `low32(v)` (00_scope.md R9). -/
def low32 (v : Stamp) : Word := v.truncate 32

/-- Bits 31:0 of a 40-bit value, the `_LO` register (20_memory.md R66). -/
def stampLo (v : Stamp) : Word := v.extractLsb' 0 32

/-- Bits 39:32 of a 40-bit value in bits 7:0, the `_HI` register (20_memory.md R62, R66). -/
def stampHi (v : Stamp) : Word := (v.extractLsb' 32 8).zeroExtend 32

/-- Bits 31:0 of a 64-bit value (20_memory.md R66). -/
def extLo (v : ExtAddr) : Word := v.extractLsb' 0 32

/-- Bits 63:32 of a 64-bit value (20_memory.md R66). -/
def extHi (v : ExtAddr) : Word := v.extractLsb' 32 32

/-- A 64-bit value with its low word replaced (20_memory.md R66). -/
def setExtLo (v : ExtAddr) (w : Word) : ExtAddr := extHi v ++ w

/-- A 64-bit value with its high word replaced (20_memory.md R66). -/
def setExtHi (v : ExtAddr) (w : Word) : ExtAddr := w ++ extLo v

/-- A 40-bit value with its low word replaced (20_memory.md R66). -/
def setStampLo (v : Stamp) (w : Word) : Stamp := v.extractLsb' 32 8 ++ w

/-- A 40-bit value with bits 39:32 replaced by bits 7:0 of the written word (20_memory.md R62, 10_state.md R47). -/
def setStampHi (v : Stamp) (w : Word) : Stamp := w.extractLsb' 0 8 ++ v.extractLsb' 0 32

end Sys2Proof.Machine
end

