-- ==== Sys2Proof/Machine/Ops.lean ====
section
/-! DEFINITION. Machine/Ops: the named operations the commands and the sequencers share: the frame
buffers, the codec buffer, the radio requests, command outcome and refusal, the round abort, the
session and the registry procedures. -/

namespace Sys2Proof.Machine

/-! ## The frame buffers (10_state.md R38, R40; 20_memory.md R68, R69) -/

/-- The byte at `a`; an unlisted byte reads 0 (10_state.md R44). -/
def Memory.read : Memory → Nat → Byte
  | [], _ => 0
  | (k, b) :: m, a => if k = a then b else Memory.read m a

/-- The cells of the bytes `bs` laid from address `lo` up, zeros left out. -/
def Memory.cellsFrom : Nat → List Byte → Memory
  | _, [] => []
  | lo, b :: bs => if b = 0 then Memory.cellsFrom (lo + 1) bs else (lo, b) :: Memory.cellsFrom (lo + 1) bs

/-- The one write of the frame buffers: the `len` bytes from `lo` become `bs`, cut or zero-filled to
`len` bytes; every other byte is kept. -/
def Memory.store (m : Memory) (lo len : Nat) (bs : List Byte) : Memory :=
  m.filter (fun c => decide (c.1 < lo)) ++ Memory.cellsFrom lo (bs.take len)
    ++ m.filter (fun c => decide (lo + len ≤ c.1))

/-- The `n` bytes from `lo` up. -/
def Memory.bytes (m : Memory) (lo n : Nat) : List Byte :=
  (List.range n).map (fun k => m.read (lo + k))

/-- The canonical form: addresses strictly rising, no zero byte listed. -/
abbrev Memory.Wf (m : Memory) : Prop :=
  m.Pairwise (fun c d => c.1 < d.1) ∧ ∀ c ∈ m, c.2 ≠ 0

/-- Offset of the `INBUF` window (20_memory.md R62). -/
def inbufBase : Nat := 0x100

/-- Offset of the `CBUF` window (20_memory.md R62). -/
def cbufBase : Nat := 0x180

/-- `BUF_SIZE` (00_scope.md R8). -/
def bufSize : Nat := 128

/-- `FRAME_MAX` (00_scope.md R8). -/
def frameMax : Nat := 127

/-- `CBUF[k]`. -/
def cbufByte (m : Memory) (k : Nat) : Byte := m.read (cbufBase + k)

/-- `CBUF[0..n)`. -/
def cbufBytes (m : Memory) (n : Nat) : List Byte := m.bytes cbufBase n

/-- `INBUF[0..n)`. -/
def inbufBytes (m : Memory) (n : Nat) : List Byte := m.bytes inbufBase n

/-- `storeC(f)` (41_codec.md R122): `CBUF` is `f`, zero-filled, and `CLEN` its length. -/
def storeC (f : List Byte) (s : State) : State :=
  { s with mem := s.mem.store cbufBase bufSize f, clen := BitVec.ofNat 8 f.length }

/-- `CBUF[0..CLEN)`, the frame the codec holds. -/
def heldFrame (s : State) : List Byte := cbufBytes s.mem s.clen.toNat

/-- Whether the received frame's length is accepted, `INLEN ≤ FRAME_MAX` (41_codec.md R127, 44_coordinator.md R196). -/
def inlenAccepted (s : State) : Bool := decide (s.inlen.toNat ≤ frameMax)

/-- `storeC(INBUF[0..INLEN))` (41_codec.md R127, 44_coordinator.md R196). -/
def storeReceived (s : State) : State := storeC (inbufBytes s.mem s.inlen.toNat) s

/-- `take()` (44_coordinator.md R196): the flag clears, and a frame that is not oversized goes to `CBUF`.
Whether it was oversized is `inlenAccepted`, which `take` does not change. -/
def take (s : State) : State :=
  let s' := { s with status.msgPending := false }
  if inlenAccepted s then storeReceived s' else s'

/-! ## Radio requests (43_session.md R173; 60_exceptions.md R280) -/

/-- `emit R` (00_scope.md R11). -/
def emit (r : RadioRequest) (s : State) : State := { s with out := s.out ++ [r] }

/-- Everything the radio was ever asked for, oldest first: `OUT`, after what was asked before the block resets
(70_reset_and_hazards.md R292, log 16). -/
def radioLog (s : State) : List RadioRequest := s.outBefore ++ s.out

/-- `emit RXON{timeout}`. -/
def rxOn (timeout : Word) (s : State) : State := emit (.rxon timeout) s

/-- `txRequest(kind, len, mode, rxAfter, tmo)` (43_session.md R173). -/
def txRequest (kind : TxKind) (len : Nat) (mode : TxMode) (rxAfter : Bool) (tmo : Word) (s : State) : State :=
  let s' := emit (.tx (cbufBytes s.mem len) mode rxAfter tmo) s
  { s' with status.txPending := true, status.txKind := kind }

/-! ## Outcome and refusal of a command (60_exceptions.md R260, R263) -/

/-- `refuse(code)`: the command changes nothing but `CMD_STATUS` (60_exceptions.md R260). -/
def refuse (opc : Byte) (code : ErrCode) (s : State) : State :=
  { s with cmdStatus := { opc := opc, ok := false, err := code, resId := 0 } }

/-- The outcome of an executed command (60_exceptions.md R263): `ERR` 0, with the `OK` and `RES_ID` it writes. -/
def finish (opc : Byte) (ok : Bool) (resId : Byte) (s : State) : State :=
  { s with cmdStatus := { opc := opc, ok := ok, err := .none, resId := resId } }

/-- Whether the coordinator is in a round, the BUSY condition of 42_registry.md R152 and 43_session.md R172. -/
def coordBusy (s : State) : Bool := s.role = .coord && s.status.coordState != .idle

/-! ## Round reset and abort (43_session.md R171; 60_exceptions.md R266) -/

/-- `roundReset()` (43_session.md R171). -/
def roundReset (s : State) : State :=
  { s with round := Round.cleared s.params.cap, status.respPhase := .poll }

/-- `recordAbort(cause, p)` (60_exceptions.md R266). DEDUCED (log 18): an abort without eviction writes `EVICT_ID` 0, as R266's
pseudocode says, though 10_state.md R34 calls the field the id last evicted. -/
def recordAbort (cause : AbortCause) (p : Option Byte) (s : State) : State :=
  { s with
    status.roundFail := true
    lastAbort := { cause := cause, evictId := p.getD 0, evictV := p.isSome } }

/-- `abort(cause)`, with or without an evicted peer (60_exceptions.md R266). -/
def abort (cause : AbortCause) (p : Option Byte) (s : State) : State :=
  let r := roundReset s
  let i := if s.role = .coord then { r with status.coordState := .idle } else r
  recordAbort cause p i

/-! ## Session (43_session.md R170) -/

/-- The stride id at position `k` above `init`, modulo 256: the id formula of 42_registry.md R153 (slot + 1)
and 43_session.md R170. -/
def strideId (init : Byte) (k : Nat) : Byte := init + BitVec.ofNat 8 (4 * k)

/-- The target list of `deriveSession` before it is cut to CAP (43_session.md R170). -/
def targetOrder (own init n : Byte) : List Byte :=
  (if own = init then [] else [init])
    ++ ((List.range (n.toNat - 1)).map (fun k => strideId init (k + 1))).filter (fun p => decide (p ≠ own))

/-- `deriveSession(own, init, n)` (43_session.md R170). -/
def deriveSession (own init n : Byte) (s : State) : State :=
  roundReset
    { s with
      session :=
        { ownId := own
          initId := init
          nodeCount := n
          waitPos := (own - init) / 4
          targets := (targetOrder own init n).take s.params.cap } }

/-- `TARGETS[i]`; an entry at or above `TGT_COUNT` is 0 (10_state.md R30). -/
def targetAt (s : State) (i : Nat) : Byte := s.session.targets.getD i 0

/-- `TGT_COUNT` (10_state.md R30). -/
def tgtCount (s : State) : Nat := s.session.targets.length

/-! ## Registry (42_registry.md R150 to R155) -/

/-- `REG_COUNT` (10_state.md R35). -/
def regCount (s : State) : Nat := s.registry.length

/-- `REG[k]`; a slot at or above `REG_COUNT` is all-zero (10_state.md R35). -/
def regSlot (s : State) (k : Nat) : Peer := s.registry.getD k { addr := 0, id := 0, dist := 0 }

/-- `findAddr(x)` (42_registry.md R151). -/
def findAddr (x : ExtAddr) (s : State) : Option Nat := s.registry.findIdx? (fun p => p.addr = x)

/-- `findId(d)` (42_registry.md R151). -/
def findId (d : Byte) (s : State) : Option Nat := s.registry.findIdx? (fun p => p.id = d)

/-- The id `regAdd(x)` answers, or none where it fails (42_registry.md R153). -/
def regAddResult (x : ExtAddr) (s : State) : Option Byte :=
  if s.params.cap ≤ regCount s ∨ (findAddr x s).isSome then none
  else some (strideId s.session.initId (regCount s + 1))

/-- `regAdd(x)` (42_registry.md R153). -/
def regAdd (x : ExtAddr) (s : State) : State :=
  match regAddResult x s with
  | none => s
  | some d => { s with registry := s.registry ++ [{ addr := x, id := d, dist := 0 }] }

/-- `regRemove(d)` (42_registry.md R154). It succeeds exactly where `findId` finds. -/
def regRemove (d : Byte) (s : State) : State :=
  match findId d s with
  | none => s
  | some k => { s with registry := s.registry.eraseIdx k }

/-- `REG[k].ID <- d` (42_registry.md R160, 43_session.md R176). -/
def regSetId (k : Nat) (d : Byte) (s : State) : State :=
  { s with registry := s.registry.modify k (fun p => { p with id := d }) }

/-- `regSetDist(d, v)` (42_registry.md R155). It succeeds exactly where `findId` finds. -/
def regSetDist (d : Byte) (v : Word) (s : State) : State :=
  match findId d s with
  | none => s
  | some k => { s with registry := s.registry.modify k (fun p => { p with dist := v }) }

end Sys2Proof.Machine
end

