-- ==== Sys2Proof/Machine/Capture.lean ====
section
/-! DEFINITION. Machine/Capture: the radio-event capture agent, the backoff timer and the block reset input
(60_exceptions.md R270 to R273, R276; 70_reset_and_hazards.md R290). -/

namespace Sys2Proof.Machine

/-- `EV_RX_GOOD(bytes, len, ts)` (60_exceptions.md R270). A list that is not `len` long is cut or
zero-filled to `len` (log 6). -/
def onRxGood (bytes : List Byte) (len : BitVec 16) (ts : Stamp) (s : State) : State :=
  let s₁ := if s.status.msgPending then { s with status.overrun := true } else s
  let s₂ :=
    if len.toNat ≤ frameMax then { s₁ with mem := s₁.mem.store inbufBase bufSize (bytes.take len.toNat) }
    else s₁
  { s₂ with inlen := len, stamps.rx := ts, status.msgPending := true }

/-- `EV_RX_ERROR` and `EV_RX_TIMEOUT` (60_exceptions.md R271). -/
def onRxErr (cause : ErrCause) (s : State) : State :=
  let s₁ := if s.status.errPending then { s with status.overrun := true } else s
  { s₁ with status.errPending := true, status.errCause := cause }

/-- The timestamps an `EV_TX_DONE` latches, by `TX_KIND` (60_exceptions.md R272). -/
def latchTx (kind : TxKind) (ts : Stamp) (v : Stamps) : Stamps :=
  let v := { v with tx := ts }
  match kind with
  | .poll => { v with txPoll := ts }
  | .range => { v with txRange := ts }
  | .ack => { v with ackTx := ts }
  | .none => v
  | .final => v
  | .blink => v
  | .config => v
  | .host => v

/-- `EV_TX_DONE(ts)` (60_exceptions.md R272); a stray completion has no effect. -/
def onTxDone (ts : Stamp) (s : State) : State :=
  if s.status.txPending then
    { s with stamps := latchTx s.status.txKind ts s.stamps, status.txPending := false }
  else s

/-- One step of the capture agent (10_state.md R20), in every role and whether or not enabled. -/
def captureEvent (e : RadioEvent) (s : State) : State :=
  match e with
  | .rxGood bytes len ts => onRxGood bytes len ts s
  | .rxError => onRxErr .rxError s
  | .rxTimeout => onRxErr .rxTimeout s
  | .txDone ts => onTxDone ts s

/-- The backoff timer's step, if it has one (60_exceptions.md R276). -/
def backoffStep (s : State) : Option State :=
  if s.status.backoff then some { s with status.backoff := false } else none

/-- The block reset input: every state element of the block takes its reset value (70_reset_and_hazards.md
R290); the parameters and the model's own fields stay, and the radio, which is not reset (R292), keeps what it was asked for
(log 16). DESIGN CHOICE (log 7): the assertion and the release of the input are one action; no other action happens while it is
held. -/
def blockReset (s : State) : State :=
  { State.resetOf s.params with
    outBefore := radioLog s
    readData := s.readData
    schedule := s.schedule
    envTick := s.envTick
    draws := s.draws }

end Sys2Proof.Machine
end

