-- ==== Sys2Proof/Syntax.lean ====
section
/-! DEFINITION. Syntax: the fifteen commands of 30_encoding.md R92, one constructor per row of
spec/opcode_table.json. Operands are the bytes `A`, `B`, `C` of the command word (R91); wider
operands are argument registers of the machine (R95), not syntax. -/

namespace Sys2Proof

/-- A decoded command word (30_encoding.md R92). -/
inductive Instr where
  /-- BUILD_BLINK, 41_codec.md R123. -/
  | buildBlink
  /-- BUILD_BCAST, 41_codec.md R124. -/
  | buildBcast
  /-- BUILD_CONFIG initiator-id, assigned-id, total-count, 41_codec.md R125. -/
  | buildConfig (init assigned total : Byte)
  /-- BUILD_RANGING function-code, source-id, 41_codec.md R126. -/
  | buildRanging (fc srcId : Byte)
  /-- PARSE, 41_codec.md R127. -/
  | parse
  /-- PARSE_CONFIG, 41_codec.md R128. -/
  | parseConfig
  /-- REG_CONTAINS, 42_registry.md R157. -/
  | regContains
  /-- REG_ADD, 42_registry.md R158. -/
  | regAdd
  /-- REG_REMOVE id, 42_registry.md R159. -/
  | regRemove (id : Byte)
  /-- REG_UPDATE_ID id, 42_registry.md R160. -/
  | regUpdateId (id : Byte)
  /-- REG_SET_DIST id, 42_registry.md R156. -/
  | regSetDist (id : Byte)
  /-- SESSION_SET own, initiator, total, 43_session.md R172. -/
  | sessionSet (own init total : Byte)
  /-- SEND_CONFIG slot, 43_session.md R176. -/
  | sendConfig (slot : Byte)
  /-- TX_SEND flags: bit 0 `DLY`, bit 1 `RXA`, bits 7:2 reserved, 43_session.md R174. -/
  | txSend (flags : Byte)
  /-- RX_ENABLE flags: bit 0 `TMO`, bits 7:1 reserved, 43_session.md R175. -/
  | rxEnable (flags : Byte)
deriving DecidableEq, Repr

end Sys2Proof
end

