-- ==== Sys2Proof/WellFormed.lean ====
section
/-! DEFINITION. WellFormed: the checks on an instruction that the bytes of its operands do not make
by their width: the reserved bits inside operand `A` of TX_SEND and RX_ENABLE are 0
(30_encoding.md R92, R93). Every other operand admits all 256 values. -/

namespace Sys2Proof

/-- Bits 7:2 of TX_SEND's operand `A` are reserved (30_encoding.md R92). -/
def txFlagsLegal (flags : Byte) : Bool := flags &&& 0xFC#8 == 0#8

/-- Bits 7:1 of RX_ENABLE's operand `A` are reserved (30_encoding.md R92). -/
def rxFlagsLegal (flags : Byte) : Bool := flags &&& 0xFE#8 == 0#8

/-- An instruction some command word encodes. -/
def Instr.wellFormed : Instr → Bool
  | .txSend flags => txFlagsLegal flags
  | .rxEnable flags => rxFlagsLegal flags
  | .buildBlink => true
  | .buildBcast => true
  | .buildConfig _ _ _ => true
  | .buildRanging _ _ => true
  | .parse => true
  | .parseConfig => true
  | .regContains => true
  | .regAdd => true
  | .regRemove _ => true
  | .regUpdateId _ => true
  | .regSetDist _ => true
  | .sessionSet _ _ _ => true
  | .sendConfig _ => true

end Sys2Proof
end

