-- ==== Sys2Proof/Decode.lean ====
section
/-! DEFINITION. Decode: command words to instructions and back (30_encoding.md R90 to R94). Decoding
is total on every 32-bit word and rejects by the two names of 60_exceptions.md R261. -/

namespace Sys2Proof

/-- What a command word is: an instruction, or one of the two rejections of 30_encoding.md R93 and R94. -/
inductive Decoded where
  /-- The word is an instruction's. -/
  | instr (i : Instr)
  /-- `OPC` is not in the opcode map (R94). -/
  | illegalOpcode
  /-- `OPC` is known and a reserved field or bit is not 0 (R93). -/
  | reservedField
deriving DecidableEq, Repr

/-- `OPC` = w[7:0] (30_encoding.md R91). -/
def fieldOpc (w : Word) : Byte := w.extractLsb' 0 8

/-- `A` = w[15:8] (30_encoding.md R91). -/
def fieldA (w : Word) : Byte := w.extractLsb' 8 8

/-- `B` = w[23:16] (30_encoding.md R91). -/
def fieldB (w : Word) : Byte := w.extractLsb' 16 8

/-- `C` = w[31:24] (30_encoding.md R91). -/
def fieldC (w : Word) : Byte := w.extractLsb' 24 8

/-- The instruction `i`, unless a reserved field of its word is set (30_encoding.md R93). -/
def ifReservedZero (reservedZero : Bool) (i : Instr) : Decoded :=
  if reservedZero then .instr i else .reservedField

/-- The decoder of 30_encoding.md R91 to R94. -/
def decode (w : Word) : Decoded :=
  let a := fieldA w
  let b := fieldB w
  let c := fieldC w
  match (fieldOpc w).toNat with
  | 0x01 => ifReservedZero (a == 0 && b == 0 && c == 0) .buildBlink
  | 0x02 => ifReservedZero (a == 0 && b == 0 && c == 0) .buildBcast
  | 0x03 => .instr (.buildConfig a b c)
  | 0x04 => ifReservedZero (c == 0) (.buildRanging a b)
  | 0x05 => ifReservedZero (a == 0 && b == 0 && c == 0) .parse
  | 0x06 => ifReservedZero (a == 0 && b == 0 && c == 0) .parseConfig
  | 0x10 => ifReservedZero (a == 0 && b == 0 && c == 0) .regContains
  | 0x11 => ifReservedZero (a == 0 && b == 0 && c == 0) .regAdd
  | 0x12 => ifReservedZero (b == 0 && c == 0) (.regRemove a)
  | 0x13 => ifReservedZero (b == 0 && c == 0) (.regUpdateId a)
  | 0x14 => ifReservedZero (b == 0 && c == 0) (.regSetDist a)
  | 0x20 => .instr (.sessionSet a b c)
  | 0x21 => ifReservedZero (b == 0 && c == 0) (.sendConfig a)
  | 0x22 => ifReservedZero (txFlagsLegal a && b == 0 && c == 0) (.txSend a)
  | 0x23 => ifReservedZero (rxFlagsLegal a && b == 0 && c == 0) (.rxEnable a)
  | _ => .illegalOpcode

/-- The opcode of an instruction (30_encoding.md R92). -/
def Instr.opcode : Instr → Byte
  | .buildBlink => 0x01
  | .buildBcast => 0x02
  | .buildConfig _ _ _ => 0x03
  | .buildRanging _ _ => 0x04
  | .parse => 0x05
  | .parseConfig => 0x06
  | .regContains => 0x10
  | .regAdd => 0x11
  | .regRemove _ => 0x12
  | .regUpdateId _ => 0x13
  | .regSetDist _ => 0x14
  | .sessionSet _ _ _ => 0x20
  | .sendConfig _ => 0x21
  | .txSend _ => 0x22
  | .rxEnable _ => 0x23

/-- A command word from its four fields: `OPC | A << 8 | B << 16 | C << 24` (30_encoding.md R96). -/
def packWord (opc a b c : Byte) : Word := c ++ b ++ a ++ opc

/-- The command word of an instruction (30_encoding.md R92, R96). -/
def encode (i : Instr) : Word :=
  match i with
  | .buildConfig a b c => packWord i.opcode a b c
  | .buildRanging a b => packWord i.opcode a b 0
  | .regRemove a => packWord i.opcode a 0 0
  | .regUpdateId a => packWord i.opcode a 0 0
  | .regSetDist a => packWord i.opcode a 0 0
  | .sessionSet a b c => packWord i.opcode a b c
  | .sendConfig a => packWord i.opcode a 0 0
  | .txSend a => packWord i.opcode a 0 0
  | .rxEnable a => packWord i.opcode a 0 0
  | .buildBlink => packWord i.opcode 0 0 0
  | .buildBcast => packWord i.opcode 0 0 0
  | .parse => packWord i.opcode 0 0 0
  | .parseConfig => packWord i.opcode 0 0 0
  | .regContains => packWord i.opcode 0 0 0
  | .regAdd => packWord i.opcode 0 0 0

/-- The `match` and `mask` columns of spec/opcode_table.json, which 30_encoding.md R93 names: a word
`w` with a known opcode is executed only if `w &&& mask = match`. -/
def matchAndMask : Nat → Option (Word × Word)
  | 0x01 => some (0x00000001, 0xFFFFFFFF)
  | 0x02 => some (0x00000002, 0xFFFFFFFF)
  | 0x03 => some (0x00000003, 0x000000FF)
  | 0x04 => some (0x00000004, 0xFF0000FF)
  | 0x05 => some (0x00000005, 0xFFFFFFFF)
  | 0x06 => some (0x00000006, 0xFFFFFFFF)
  | 0x10 => some (0x00000010, 0xFFFFFFFF)
  | 0x11 => some (0x00000011, 0xFFFFFFFF)
  | 0x12 => some (0x00000012, 0xFFFF00FF)
  | 0x13 => some (0x00000013, 0xFFFF00FF)
  | 0x14 => some (0x00000014, 0xFFFF00FF)
  | 0x20 => some (0x00000020, 0x000000FF)
  | 0x21 => some (0x00000021, 0xFFFF00FF)
  | 0x22 => some (0x00000022, 0xFFFFFCFF)
  | 0x23 => some (0x00000023, 0xFFFFFEFF)
  | _ => none

/-- The instruction the decoder reads from the low `nbits` bits of `w`; a bit above `nbits` is 0. -/
def decodeTableWord (nbits w : Nat) : Option Instr :=
  match decode (BitVec.ofNat 32 (w % 2 ^ nbits)) with
  | .instr i => some i
  | .illegalOpcode => none
  | .reservedField => none

end Sys2Proof
end

