-- ==== Sys2Proof/Machine/Frame.lean ====
section
/-! DEFINITION. Machine/Frame: the frame format (30_encoding.md R98 to R112), the frame builder, the getters
and the sequencer's tests (41_codec.md R120, R129 to R138). -/

namespace Sys2Proof.Machine

/-! ## Function codes and addressing modes -/

/-- The eight function codes (30_encoding.md R102). -/
inductive FuncCode where
  /-- FC_BLINK. -/
  | blink
  /-- FC_BCAST. -/
  | bcast
  /-- FC_CONFIG. -/
  | config
  /-- FC_POLL. -/
  | poll
  /-- FC_ACK. -/
  | ack
  /-- FC_RANGE. -/
  | range
  /-- FC_FINAL. -/
  | final
  /-- FC_RESET. -/
  | reset
deriving DecidableEq, Repr

/-- The value of a function code (30_encoding.md R102). -/
def funcCodeByte : FuncCode → Byte
  | .blink => 0x01
  | .bcast => 0x02
  | .config => 0x03
  | .poll => 0x04
  | .ack => 0x05
  | .range => 0x06
  | .final => 0x07
  | .reset => 0x08

/-- The function code a byte names; every other byte is unknown (30_encoding.md R102, R109). -/
def funcCodeOf (b : Byte) : Option FuncCode :=
  match b.toNat with
  | 1 => some .blink
  | 2 => some .bcast
  | 3 => some .config
  | 4 => some .poll
  | 5 => some .ack
  | 6 => some .range
  | 7 => some .final
  | 8 => some .reset
  | _ => none

/-- An addressing mode (30_encoding.md R99). -/
inductive AddrMode where
  /-- 0 none. -/
  | none
  /-- 1 reserved. -/
  | reserved
  /-- 2 short, 2 bytes. -/
  | short
  /-- 3 extended, 8 bytes. -/
  | extended
deriving DecidableEq, Repr

/-- The two bits of a mode (30_encoding.md R99). -/
def addrModeBits : AddrMode → BitVec 2
  | .none => 0
  | .reserved => 1
  | .short => 2
  | .extended => 3

/-- The mode two bits name (30_encoding.md R99). -/
def addrModeOf (b : BitVec 2) : AddrMode :=
  match b.toNat with
  | 0 => .none
  | 1 => .reserved
  | 2 => .short
  | _ => .extended

/-- `alen(mode)` (30_encoding.md R100). -/
def alen : AddrMode → Nat
  | .none => 0
  | .reserved => 0
  | .short => 2
  | .extended => 8

/-! ## Building (41_codec.md R120) -/

/-- `FC0` (00_scope.md R8). -/
def fc0 : Byte := 0x41

/-- `NET_ID` (00_scope.md R8). -/
def netId : BitVec 16 := 0xDECA

/-- `CHECKSUM_LEN` (00_scope.md R8). -/
def checksumLen : Nat := 2

/-- The broadcast short address (30_encoding.md R111). -/
def broadcastShort : BitVec 16 := 0xFFFF

/-- Frame-control byte 1: `(sm << 6) | (dm << 2)` (30_encoding.md R99). -/
def fc1 (dm sm : AddrMode) : Byte := addrModeBits sm ++ (0 : BitVec 2) ++ addrModeBits dm ++ (0 : BitVec 2)

/-- `mkFrame(dm, sm, seq, dst, src, fc, pl)` (41_codec.md R120). -/
def mkFrame (dm sm : AddrMode) (seq : Byte) (dst src : List Byte) (fc : Byte) (pl : List Byte) : List Byte :=
  [fc0, fc1 dm sm, seq] ++ le2 netId ++ dst ++ src ++ [fc] ++ pl ++ List.replicate checksumLen 0

/-- A discovery blink (30_encoding.md R103, 41_codec.md R123). -/
def blinkFrame (seq : Byte) (dst src : ExtAddr) : List Byte :=
  mkFrame .extended .extended seq (le8 dst) (le8 src) (funcCodeByte .blink) []

/-- A discovery broadcast (30_encoding.md R103, 41_codec.md R124). -/
def bcastFrame (seq : Byte) (src : ExtAddr) : List Byte :=
  mkFrame .short .extended seq (le2 broadcastShort) (le8 src) (funcCodeByte .bcast) []

/-- A ranging config (30_encoding.md R103, 41_codec.md R125). -/
def configFrame (seq : Byte) (dst src : ExtAddr) (t : ConfigTriple) : List Byte :=
  mkFrame .extended .extended seq (le8 dst) (le8 src) (funcCodeByte .config) [t.init, t.assigned, t.total]

/-- A steady-state frame with short addresses (30_encoding.md R103, 41_codec.md R126). -/
def rangingFrame (seq : Byte) (dst : BitVec 16) (srcId fc : Byte) (pl : List Byte) : List Byte :=
  mkFrame .short .short seq (le2 dst) (le2 (shortOfId srcId)) fc pl

/-! ## Getters, total functions of `CBUF` (41_codec.md R129 to R136) -/

/-- `dstMode` = CBUF[1][3:2] (41_codec.md R129). -/
def dstMode (m : Memory) : AddrMode := addrModeOf ((cbufByte m 1).extractLsb' 2 2)

/-- `srcMode` = CBUF[1][7:6] (41_codec.md R129). -/
def srcMode (m : Memory) : AddrMode := addrModeOf ((cbufByte m 1).extractLsb' 6 2)

/-- `HL` (41_codec.md R130). -/
def headerLen (m : Memory) : Nat := 5 + alen (dstMode m) + alen (srcMode m)

/-- `PO` = HL + 1 (41_codec.md R130). -/
def payloadOff (m : Memory) : Nat := headerLen m + 1

/-- `fcode` = CBUF[HL] (41_codec.md R131). -/
def fcode (m : Memory) : Byte := cbufByte m (headerLen m)

/-- `seq` = CBUF[2] (41_codec.md R132). -/
def frameSeq (m : Memory) : Byte := cbufByte m 2

/-- `le(CBUF[k..k+n))`. -/
def cbufValue (m : Memory) (k n : Nat) : Nat := leValue (m.bytes (cbufBase + k) n)

/-- `dstShort` (41_codec.md R133). -/
def dstShort (m : Memory) : BitVec 16 :=
  if dstMode m = .short then BitVec.ofNat 16 (cbufValue m 5 2) else 0

/-- `srcShort` (41_codec.md R133). -/
def srcShort (m : Memory) : BitVec 16 :=
  if srcMode m = .short then BitVec.ofNat 16 (cbufValue m (5 + alen (dstMode m)) 2) else 0

/-- `dstExt` (41_codec.md R134). -/
def dstExt (m : Memory) : ExtAddr :=
  if dstMode m = .extended then BitVec.ofNat 64 (cbufValue m 5 8) else 0

/-- `srcExt` (41_codec.md R134). -/
def srcExt (m : Memory) : ExtAddr :=
  if srcMode m = .extended then BitVec.ofNat 64 (cbufValue m (5 + alen (dstMode m)) 8) else 0

/-- `ts` = le(CBUF[PO..PO+4)) (41_codec.md R135, 30_encoding.md R112). -/
def frameTs (m : Memory) : Word := BitVec.ofNat 32 (cbufValue m (payloadOff m) 4)

/-- `srcId` = srcShort mod 256 (41_codec.md R136). -/
def srcId (m : Memory) : Byte := (srcShort m).truncate 8

/-- `dstId` = dstShort mod 256 (41_codec.md R136). -/
def dstId (m : Memory) : Byte := (dstShort m).truncate 8

/-! ## The sequencer's tests (41_codec.md R137, R138) -/

/-- Whether `fcode` is FC_ACK or FC_FINAL, the codes that carry a timestamp (30_encoding.md R103). -/
def carriesTs (m : Memory) : Bool :=
  fcode m == funcCodeByte .ack || fcode m == funcCodeByte .final

/-- `wellFormed(CBUF, CLEN)` (41_codec.md R137). DEDUCED (log 19): only mode 1 is excluded, as R137 and 30_encoding.md R107 say;
the mode none, which D12 of 92_eei_decisions.md also names, is accepted. -/
def wellFormed (m : Memory) (clen : Byte) : Bool :=
  dstMode m != .reserved && srcMode m != .reserved
    && decide (headerLen m + 1 ≤ clen.toNat)
    && (!carriesTs m || decide (payloadOff m + 4 ≤ clen.toNat))

/-- `parseCfg(CBUF, CLEN)` (41_codec.md R138). -/
def parseCfg (m : Memory) (clen : Byte) : Option ConfigTriple :=
  if fcode m = funcCodeByte .config ∧ payloadOff m + 3 ≤ clen.toNat then
    some
      { init := cbufByte m (payloadOff m)
        assigned := cbufByte m (payloadOff m + 1)
        total := cbufByte m (payloadOff m + 2) }
  else none

end Sys2Proof.Machine
end

