-- ==== Sys2Proof/Machine/Operands.lean ====
section
/-! DEFINITION. Machine/Operands: what a command takes from its operand bytes and from the argument
registers (30_encoding.md R91, R95). Operand bytes are unsigned and used as they stand. -/

namespace Sys2Proof.Machine

/-- TX_SEND, `A` bit 0, `DLY` (43_session.md R174). -/
def flagDly (flags : Byte) : Bool := flags.getLsbD 0

/-- TX_SEND, `A` bit 1, `RXA` (43_session.md R174). -/
def flagRxa (flags : Byte) : Bool := flags.getLsbD 1

/-- RX_ENABLE, `A` bit 0, `TMO` (43_session.md R175). -/
def flagTmo (flags : Byte) : Bool := flags.getLsbD 0

/-- The transmit mode TX_SEND asks for; `ARG_TIME` is read only when `DLY` = 1 (43_session.md R174). -/
def txSendMode (flags : Byte) (s : State) : TxMode := if flagDly flags then .dly s.args.time else .imm

/-- A receive timeout that applies only if its flag is set, else 0 (43_session.md R174, R175). -/
def timeoutIf (on : Bool) (s : State) : Word := if on then s.timing.rxTimeout else 0

/-- `ARGX_A[15:0]`, the destination short address of BUILD_RANGING (41_codec.md R126). -/
def argDestShort (s : State) : BitVec 16 := s.args.xA.extractLsb' 0 16

/-- The five steady-state codes BUILD_RANGING accepts (41_codec.md R126). -/
def isRangingCode (fc : Byte) : Bool :=
  match funcCodeOf fc with
  | some .poll => true
  | some .ack => true
  | some .range => true
  | some .final => true
  | some .reset => true
  | some .blink => false
  | some .bcast => false
  | some .config => false
  | none => false

/-- The payload of BUILD_RANGING: the reply delay for ACK and FINAL, else nothing (41_codec.md R126). -/
def rangingPayload (fc : Byte) (s : State) : List Byte :=
  if fc = funcCodeByte .ack ∨ fc = funcCodeByte .final then le4 s.args.ts else []

/-- The total count SESSION_SET and a received config accept, 1 ≤ N ≤ MAX_NODES (43_session.md R172, 45_responder.md R235). -/
def totalLegal (n : Byte) (s : State) : Bool := decide (1 ≤ n.toNat ∧ n.toNat ≤ s.params.maxNodes)

end Sys2Proof.Machine
end

