-- ==== Sys2Proof/Machine/Codec.lean ====
section
/-! DEFINITION. Machine/Codec: the codec commands (41_codec.md R121 to R128). -/

namespace Sys2Proof.Machine

/-- The three outcomes with this machine's types. -/
abbrev Result := Host.Outcome State Fault Refusal

/-- A command that needs role NONE: refused with WRONG_ROLE elsewhere (41_codec.md R121, 43_session.md R174, R175). -/
def inRoleNone (opc : Byte) (run : State → State) (s : State) : Result :=
  .next (if s.role = .none then run s else refuse opc .wrongRole s)

/-- A build: store the frame, OK = 1 (41_codec.md R123 to R126). -/
def buildFrame (opc : Byte) (f : List Byte) (s : State) : State := finish opc true 0 (storeC f s)

/-- BUILD_BLINK (41_codec.md R123). -/
def execBuildBlink (s : State) : Result :=
  inRoleNone (Instr.buildBlink).opcode
    (buildFrame (Instr.buildBlink).opcode (blinkFrame s.seq s.args.xA s.args.xB)) s

/-- BUILD_BCAST (41_codec.md R124). -/
def execBuildBcast (s : State) : Result :=
  inRoleNone (Instr.buildBcast).opcode
    (buildFrame (Instr.buildBcast).opcode (bcastFrame s.seq s.args.xB)) s

/-- BUILD_CONFIG (41_codec.md R125). -/
def execBuildConfig (init assigned total : Byte) (s : State) : Result :=
  inRoleNone (Instr.buildConfig init assigned total).opcode
    (buildFrame (Instr.buildConfig init assigned total).opcode
      (configFrame s.seq s.args.xA s.args.xB { init := init, assigned := assigned, total := total })) s

/-- BUILD_RANGING (41_codec.md R126): WRONG_ROLE, then BAD_OPERAND, then the frame. -/
def execBuildRanging (fc src : Byte) (s : State) : Result :=
  let opc := (Instr.buildRanging fc src).opcode
  inRoleNone opc
    (fun s =>
      if isRangingCode fc then
        buildFrame opc (rangingFrame s.seq (argDestShort s) src fc (rangingPayload fc s)) s
      else refuse opc .badOperand s) s

/-- PARSE (41_codec.md R127): an oversized frame is not a refusal, OK = 0. -/
def execParse (s : State) : Result :=
  let opc := (Instr.parse).opcode
  inRoleNone opc
    (fun s => if inlenAccepted s then finish opc true 0 (storeReceived s) else finish opc false 0 s) s

/-- PARSE_CONFIG (41_codec.md R128): a failed extraction is not a refusal, OK = 0. -/
def execParseConfig (s : State) : Result :=
  let opc := (Instr.parseConfig).opcode
  inRoleNone opc
    (fun s =>
      match parseCfg s.mem s.clen with
      | some t => finish opc true 0 { s with cfgOut := t }
      | none => finish opc false 0 s) s

end Sys2Proof.Machine
end

