-- ==== Sys2Proof/Machine/Registry.lean ====
section
/-! DEFINITION. Machine/Registry: the registry commands (42_registry.md R152, R156 to R160). -/

namespace Sys2Proof.Machine

/-- A registry mutation or SESSION_SET: refused with BUSY while a coordinator round runs
(42_registry.md R152, 43_session.md R172). -/
def unlessCoordBusy (opc : Byte) (run : State → State) (s : State) : Result :=
  .next (if coordBusy s then refuse opc .busy s else run s)

/-- REG_CONTAINS (42_registry.md R157): allowed in every role and state. -/
def execRegContains (s : State) : Result :=
  let opc := (Instr.regContains).opcode
  .next
    (match findAddr s.args.xA s with
    | some k => finish opc true (regSlot s k).id s
    | none => finish opc false 0 s)

/-- REG_ADD (42_registry.md R158). -/
def execRegAdd (s : State) : Result :=
  let opc := (Instr.regAdd).opcode
  unlessCoordBusy opc
    (fun s =>
      match regAddResult s.args.xA s with
      | some d => finish opc true d (regAdd s.args.xA s)
      | none => finish opc false 0 s) s

/-- REG_REMOVE (42_registry.md R159). -/
def execRegRemove (id : Byte) (s : State) : Result :=
  let opc := (Instr.regRemove id).opcode
  unlessCoordBusy opc (fun s => finish opc (findId id s).isSome 0 (regRemove id s)) s

/-- REG_UPDATE_ID (42_registry.md R160). -/
def execRegUpdateId (id : Byte) (s : State) : Result :=
  let opc := (Instr.regUpdateId id).opcode
  unlessCoordBusy opc
    (fun s =>
      match findAddr s.args.xA s with
      | some k => finish opc true 0 (regSetId k id s)
      | none => finish opc false 0 s) s

/-- REG_SET_DIST (42_registry.md R156). -/
def execRegSetDist (id : Byte) (s : State) : Result :=
  let opc := (Instr.regSetDist id).opcode
  unlessCoordBusy opc (fun s => finish opc (findId id s).isSome 0 (regSetDist id s.args.f32 s)) s

end Sys2Proof.Machine
end

