-- ==== Sys2Proof/Machine/Session.lean ====
section
/-! DEFINITION. Machine/Session: the session and transmission commands (43_session.md R172, R174 to R176). -/

namespace Sys2Proof.Machine

/-- SESSION_SET (43_session.md R172): BUSY, then BAD_OPERAND, then the session. -/
def execSessionSet (own init total : Byte) (s : State) : Result :=
  let opc := (Instr.sessionSet own init total).opcode
  unlessCoordBusy opc
    (fun s =>
      if totalLegal total s then finish opc true 0 (deriveSession own init total s)
      else refuse opc .badOperand s) s

/-- The id SEND_CONFIG assigns to the peer of slot `slot` (43_session.md R176). -/
def assignedId (slot : Byte) (s : State) : Byte := strideId s.session.initId (slot.toNat + 1)

/-- The total count SEND_CONFIG sends, registry size + 1 (43_session.md R176). -/
def configTotal (s : State) : Byte := BitVec.ofNat 8 (regCount s + 1)

/-- The effect of an accepted SEND_CONFIG (43_session.md R176), up to the outcome. -/
def sendConfig (slot : Byte) (s : State) : State :=
  let d := assignedId slot s
  let n := configTotal s
  let s₁ := regSetId slot.toNat d s
  let s₂ :=
    storeC (configFrame s₁.seq (regSlot s₁ slot.toNat).addr s₁.eui
      { init := s₁.session.initId, assigned := d, total := n }) s₁
  let s₃ := txRequest .config s₂.clen.toNat .imm false 0 s₂
  deriveSession s₃.session.ownId s₃.session.initId n s₃

/-- SEND_CONFIG (43_session.md R176): WRONG_ROLE, then BUSY, then BAD_OPERAND. -/
def execSendConfig (slot : Byte) (s : State) : Result :=
  let opc := (Instr.sendConfig slot).opcode
  .next
    (if s.role ≠ .coord then refuse opc .wrongRole s
    else if s.status.coordState ≠ .idle ∨ s.status.txPending then refuse opc .busy s
    else if regCount s ≤ slot.toNat then refuse opc .badOperand s
    else finish opc true (assignedId slot s) (sendConfig slot s))

/-- TX_SEND (43_session.md R174): reserved bits, then WRONG_ROLE, BUSY, BAD_OPERAND. -/
def execTxSend (flags : Byte) (s : State) : Result :=
  let opc := (Instr.txSend flags).opcode
  if txFlagsLegal flags then
    inRoleNone opc
      (fun s =>
        if s.status.txPending then refuse opc .busy s
        else if s.clen = 0 then refuse opc .badOperand s
        else
          finish opc true 0
            (txRequest .host s.clen.toNat (txSendMode flags s) (flagRxa flags)
              (timeoutIf (flagRxa flags) s) s)) s
  else .next (refuse opc .reservedField s)

/-- RX_ENABLE (43_session.md R175): reserved bits, then WRONG_ROLE, BUSY. -/
def execRxEnable (flags : Byte) (s : State) : Result :=
  let opc := (Instr.rxEnable flags).opcode
  if rxFlagsLegal flags then
    inRoleNone opc
      (fun s =>
        if s.status.txPending then refuse opc .busy s
        else finish opc true 0 (rxOn (timeoutIf (flagTmo flags) s) s)) s
  else .next (refuse opc .reservedField s)

end Sys2Proof.Machine
end

