-- ==== Sys2Proof/Machine/Dispatch.lean ====
section
/-! DEFINITION. Machine/Dispatch: the meaning of each command, one arm per constructor. -/

namespace Sys2Proof.Machine

def exec (i : Instr) (s : State) : Host.Outcome State Fault Refusal :=
  match i with
  | .buildBlink => Sys2Proof.Machine.execBuildBlink s
  | .buildBcast => Sys2Proof.Machine.execBuildBcast s
  | .buildConfig init assigned total => Sys2Proof.Machine.execBuildConfig init assigned total s
  | .buildRanging fc src => Sys2Proof.Machine.execBuildRanging fc src s
  | .parse => Sys2Proof.Machine.execParse s
  | .parseConfig => Sys2Proof.Machine.execParseConfig s
  | .regContains => Sys2Proof.Machine.execRegContains s
  | .regAdd => Sys2Proof.Machine.execRegAdd s
  | .regRemove id => Sys2Proof.Machine.execRegRemove id s
  | .regUpdateId id => Sys2Proof.Machine.execRegUpdateId id s
  | .regSetDist id => Sys2Proof.Machine.execRegSetDist id s
  | .sessionSet own init total => Sys2Proof.Machine.execSessionSet own init total s
  | .sendConfig slot => Sys2Proof.Machine.execSendConfig slot s
  | .txSend flags => Sys2Proof.Machine.execTxSend flags s
  | .rxEnable flags => Sys2Proof.Machine.execRxEnable flags s

end Sys2Proof.Machine
end

