-- ==== Sys2Proof/Machine/Flags.lean ====
section
/-! DEFINITION. Machine/Flags: the words of the flag registers, the write-one-to-clear rule and the
interrupt output (10_state.md R21, R23 to R25, R28, R34; 20_memory.md R70; 60_exceptions.md R274). -/

namespace Sys2Proof.Machine

/-- A flag as one bit. -/
def bit (b : Bool) : BitVec 1 := BitVec.ofBool b

/-- The bits of `CTRL.ROLE` (10_state.md R21). -/
def roleBits : Role → BitVec 2
  | .none => 0
  | .coord => 1
  | .resp => 2

/-- What a write of two bits stores in `CTRL.ROLE`: 3 stores NONE (10_state.md R21). -/
def roleOf (b : BitVec 2) : Role :=
  match b.toNat with
  | 1 => .coord
  | 2 => .resp
  | _ => .none

/-- The bits of `COORD_STATE` (10_state.md R23). -/
def coordStateBits : CoordState → BitVec 2
  | .idle => 0
  | .awaitAcks => 1
  | .awaitFinals => 2
  | .complete => 3

/-- The bit of `RESP_PHASE` (10_state.md R23). -/
def respPhaseBit : RespPhase → BitVec 1
  | .poll => 0
  | .range => 1

/-- The bits of `TX_KIND` (10_state.md R23). -/
def txKindBits : TxKind → BitVec 3
  | .none => 0
  | .poll => 1
  | .range => 2
  | .ack => 3
  | .final => 4
  | .blink => 5
  | .config => 6
  | .host => 7

/-- The bit of `ERR_CAUSE` (10_state.md R23). -/
def errCauseBit : ErrCause → BitVec 1
  | .rxError => 0
  | .rxTimeout => 1

/-- The refusal code (60_exceptions.md R261). -/
def errCodeBits : ErrCode → BitVec 4
  | .none => 0
  | .illegalOpcode => 1
  | .reservedField => 2
  | .wrongRole => 3
  | .busy => 4
  | .badOperand => 5

/-- The abort cause code (60_exceptions.md R265). -/
def abortCauseBits : AbortCause → Byte
  | .none => 0
  | .blinkReceived => 1
  | .sourceMismatch => 2
  | .unexpectedCode => 3
  | .rxTimeout => 4
  | .rxError => 5
  | .implausibleDistance => 6
  | .disabled => 7
  | .respMismatch => 8
  | .respResetFrame => 9
  | .respUnexpectedCode => 10
  | .respConfig => 11

/-- The word of `CTRL` (10_state.md R21). -/
def ctrlWord (s : State) : Word := (0 : BitVec 29) ++ roleBits s.role ++ bit s.enable

/-- Bits 7:0 of `STATUS` (10_state.md R23). -/
def statusLowByte (f : Status) : Byte :=
  bit f.accessErr ++ bit f.overrun ++ bit f.discReq ++ bit f.roundFail ++ bit f.roundDone
    ++ bit f.txPending ++ bit f.errPending ++ bit f.msgPending

/-- The word of `STATUS` (10_state.md R23). -/
def statusWord (f : Status) : Word :=
  (0 : BitVec 16) ++ txKindBits f.txKind ++ respPhaseBit f.respPhase ++ coordStateBits f.coordState
    ++ bit f.backoff ++ errCauseBit f.errCause ++ statusLowByte f

/-- A host write of `STATUS`: each W1C bit written 1 clears, nothing else changes (20_memory.md R70, 10_state.md R23). -/
def statusClear (v : Word) (f : Status) : Status :=
  { f with
    msgPending := f.msgPending && !v.getLsbD 0
    errPending := f.errPending && !v.getLsbD 1
    roundDone := f.roundDone && !v.getLsbD 3
    roundFail := f.roundFail && !v.getLsbD 4
    discReq := f.discReq && !v.getLsbD 5
    overrun := f.overrun && !v.getLsbD 6
    accessErr := f.accessErr && !v.getLsbD 7 }

/-- `IRQ_EN` without its bit 2, which is hardwired 0 (10_state.md R24). -/
def irqEnMasked (b : Byte) : Byte := b &&& 0xFB

/-- The word of `CMD_STATUS` (10_state.md R25). -/
def cmdStatusWord (c : CmdStatus) : Word :=
  (0 : BitVec 8) ++ c.resId ++ errCodeBits c.err ++ (0 : BitVec 3) ++ bit c.ok ++ c.opc

/-- The word of `CFG_OUT` (10_state.md R28). -/
def cfgOutWord (t : ConfigTriple) : Word := (0 : BitVec 8) ++ t.total ++ t.assigned ++ t.init

/-- The word of `LAST_ABORT` (10_state.md R34). -/
def lastAbortWord (l : LastAbort) : Word :=
  (0 : BitVec 15) ++ bit l.evictV ++ l.evictId ++ abortCauseBits l.cause

/-- The interrupt output: some enabled event flag of bits 0, 1, 3 to 7 is 1 (60_exceptions.md R274). -/
def irq (s : State) : Bool := statusLowByte s.status &&& irqEnMasked s.irqEn != 0

end Sys2Proof.Machine
end

