-- ==== Sys2Proof/Machine/Arith.lean ====
section
/-! DEFINITION. Machine/Arith: the DS-TWR arithmetic and the binary32 rounding
(44_coordinator.md R210 to R216). Everything is exact until the one rounding of R216. -/

namespace Sys2Proof.Machine

/-- `TICK_HZ` (00_scope.md R8). -/
def tickHz : Nat := 63897600000

/-- `C_MPS` (00_scope.md R8). -/
def cMps : Nat := 299792458

/-- The four intervals of a target, as natural numbers (44_coordinator.md R213, R214). -/
structure Intervals where
  /-- round1. -/
  round1 : Nat
  /-- reply1. -/
  reply1 : Nat
  /-- round2. -/
  round2 : Nat
  /-- reply2. -/
  reply2 : Nat
deriving DecidableEq, Repr

/-- `RT[i]`. -/
def rtAt (s : State) (i : Nat) : Stamp := s.round.rt.getD i 0

/-- `RD1[i]`. -/
def rd1At (s : State) (i : Nat) : Word := s.round.rd1.getD i 0

/-- `RD2[i]`. -/
def rd2At (s : State) (i : Nat) : Word := s.round.rd2.getD i 0

/-- `TC[i]` = TX_RANGE_TS ⊖ (RT[i] ⊕ TX_POLL_TS) (44_coordinator.md R212). -/
def tcAt (s : State) (i : Nat) : Stamp :=
  stampSub s.stamps.txRange (stampAdd (rtAt s i) s.stamps.txPoll)

/-- The pairing of R213. -/
def intervals (s : State) (i : Nat) : Intervals :=
  match s.params.twrPairing with
  | .literal =>
    { round1 := (rtAt s i).toNat, reply1 := (rd1At s i).toNat
      round2 := (tcAt s i).toNat, reply2 := (rd2At s i).toNat }
  | .standard =>
    { round1 := (rtAt s i).toNat, reply1 := (rd1At s i).toNat
      round2 := (rd2At s i).toNat, reply2 := (tcAt s i).toNat }

/-- `num_i`, the one signed value of the block (44_coordinator.md R214, R221). -/
def tofNum (v : Intervals) : Int := (v.round1 * v.round2 : Nat) - (v.reply1 * v.reply2 : Nat)

/-- `den_i` (44_coordinator.md R214). -/
def tofDen (v : Intervals) : Nat := v.round1 + v.round2 + v.reply1 + v.reply2

/-- Validity: `dist_i` lies in the open interval (0, DIST_LIMIT) (44_coordinator.md R215). -/
def distValid (limit : Nat) (v : Intervals) : Bool :=
  decide (0 < tofDen v ∧ 0 < tofNum v ∧ tofNum v * cMps < (limit * tofDen v * tickHz : Nat))

/-- The numerator of `dist_i` in metres, for a positive `num_i` (44_coordinator.md R214). -/
def distNum (v : Intervals) : Nat := (tofNum v).toNat * cMps

/-- The denominator of `dist_i` (44_coordinator.md R214). -/
def distDen (v : Intervals) : Nat := tofDen v * tickHz

/-- The quotient `n / d` rounded to the nearest natural number, ties to even. -/
def roundEven (n d : Nat) : Nat :=
  let q := n / d
  let r := n % d
  if 2 * r < d then q else if d < 2 * r then q + 1 else q + q % 2

/-- Whether `n / d` is at least 2^e. -/
def atLeastPow (n d : Nat) (e : Int) : Bool := decide (d * 2 ^ e.toNat ≤ n * 2 ^ (-e).toNat)

/-- The binary exponent of `n / d`: the greatest `e` with 2^e ≤ n/d, for positive `n` and `d`. -/
def binExponent (n d : Nat) : Int :=
  let e : Int := (n.log2 : Int) - (d.log2 : Int)
  if atLeastPow n d e then e else e - 1

/-- `f32(n/d)`: the binary32 pattern nearest to `n / d`, ties to even (44_coordinator.md R216). The exponent
stops at −126 (subnormals) and the pattern at infinity; a valid distance meets neither bound (log 8). -/
def f32OfRatio (n d : Nat) : Word :=
  if n = 0 ∨ d = 0 then 0
  else
    let e : Int := max (binExponent n d) (-126)
    let m := roundEven (n * 2 ^ (23 - e).toNat) (d * 2 ^ (e - 23).toNat)
    BitVec.ofNat 32 (min ((e + 126).toNat * 2 ^ 23 + m) 0x7F800000)

/-- Whether target `i` is valid (44_coordinator.md R203, R215). -/
def targetValid (s : State) (i : Nat) : Bool := distValid s.distLimit.toNat (intervals s i)

/-- `f32(dist_i)` (44_coordinator.md R216). -/
def targetDist (s : State) (i : Nat) : Word :=
  f32OfRatio (distNum (intervals s i)) (distDen (intervals s i))

end Sys2Proof.Machine
end

