-- ==== Sys2Proof/Machine/Coordinator.lean ====
section
/-! DEFINITION. Machine/Coordinator: the coordinator's step (44_coordinator.md R190 to R206, R217). -/

namespace Sys2Proof.Machine

/-- `emit RXON{timeout: RX_TIMEOUT}`, the coordinator's receive window (60_exceptions.md R282). -/
def armWindow (s : State) : State := rxOn s.timing.rxTimeout s

/-- The broadcast frame of the coordinator, POLL or RANGE, with its own id as source (44_coordinator.md R192, R201). -/
def coordFrame (fc : FuncCode) (s : State) : List Byte :=
  rangingFrame s.seq broadcastShort s.session.ownId (funcCodeByte fc) []

/-- Start of a round (44_coordinator.md R192). -/
def startRound (s : State) : State :=
  let s₁ := roundReset s
  let s₂ := storeC (coordFrame .poll s₁) s₁
  let s₃ := txRequest .poll s₂.clen.toNat .imm true s₂.timing.rxTimeout s₂
  { s₃ with status.coordState := .awaitAcks }

/-- Whether the held frame is a well-formed discovery blink with an extended source (44_coordinator.md R193, R197). -/
def isBlink (s : State) : Bool :=
  fcode s.mem == funcCodeByte .blink && srcMode s.mem == .extended

/-- IDLE, drain a message (44_coordinator.md R193). -/
def drainMessage (s : State) : State :=
  let t := take s
  if inlenAccepted s && wellFormed t.mem t.clen && isBlink t then regAdd (srcExt t.mem) t else t

/-- The taken frame is discarded (44_coordinator.md R196). -/
def discarded (s t : State) : Bool :=
  !inlenAccepted s || !wellFormed t.mem t.clen
    || (fcode t.mem == funcCodeByte .blink && srcMode t.mem != .extended)

/-- The target whose turn it is, `TARGETS[ROUND_POS]` where `ROUND_POS < TGT_COUNT`. -/
def turnTarget (s : State) : Option Byte :=
  if s.round.pos.toNat < tgtCount s then some (targetAt s s.round.pos.toNat) else none

/-- Whether `ROUND_POS` = NODE_COUNT − 1 (44_coordinator.md R200, R202; 45_responder.md R240). -/
def atLastPos (s : State) : Bool := decide (s.round.pos.toNat + 1 = s.session.nodeCount.toNat)

/-- Last ACK: schedule RANGE (44_coordinator.md R201). -/
def sendRange (s : State) : State :=
  let t := stampAdd s.stamps.lastRx (stampOfWord s.timing.turnaround)
  let s₁ := storeC (coordFrame .range s) s
  let s₂ := txRequest .range s₁.clen.toNat (.dly t) true s₁.timing.rxTimeout s₁
  { s₂ with round.pos := 0, status.coordState := .awaitFinals }

/-- Accept an ACK (44_coordinator.md R200). -/
def acceptAck (s : State) : State :=
  let i := s.round.pos.toNat
  let s₁ :=
    { s with
      round.rt := s.round.rt.set i (stampSub s.stamps.rx s.stamps.txPoll)
      round.rd1 := s.round.rd1.set i (frameTs s.mem)
      stamps.lastRx := s.stamps.rx
      round.pos := s.round.pos + 1 }
  if atLastPos s₁ then sendRange s₁ else armWindow s₁

/-- The target indices of a round, 0 .. NODE_COUNT − 2. -/
def roundIndices (s : State) : List Nat := List.range (s.session.nodeCount.toNat - 1)

/-- Commit (44_coordinator.md R217). -/
def commitRound (s : State) : State :=
  let r := (roundIndices s).foldl (fun acc i => regSetDist (targetAt s i) (targetDist s i) acc) s
  { r with status.roundDone := true, round.pos := 0, status.coordState := .complete }

/-- Last FINAL: commit if every target is valid, else abort (44_coordinator.md R203). -/
def computeRound (s : State) : State :=
  if (roundIndices s).all (targetValid s) then commitRound s else abort .implausibleDistance none s

/-- Accept a FINAL (44_coordinator.md R202). -/
def acceptFinal (s : State) : State :=
  let i := s.round.pos.toNat
  let s₁ :=
    { s with
      round.rd2 := s.round.rd2.set i (frameTs s.mem)
      stamps.lastRx := s.stamps.rx
      round.pos := s.round.pos + 1 }
  if atLastPos s₁ then computeRound s₁ else armWindow s₁

/-- A message while awaiting frames of code `expected` (44_coordinator.md R196 to R203): `accept` is R200 or R202. -/
def awaitMessage (expected : FuncCode) (accept : State → State) (s : State) : State :=
  let t := take s
  if discarded s t then armWindow t
  else if fcode t.mem = funcCodeByte .blink then abort .blinkReceived none (regAdd (srcExt t.mem) t)
  else if fcode t.mem ≠ funcCodeByte expected then abort .unexpectedCode none t
  else if turnTarget t ≠ some (srcId t.mem) then abort .sourceMismatch none t
  else accept t

/-- The cause an error event gives an abort (44_coordinator.md R204). -/
def errorAbortCause : ErrCause → AbortCause
  | .rxTimeout => .rxTimeout
  | .rxError => .rxError

/-- The peer a timeout evicts: the one whose turn it is, unless it is the initiator (44_coordinator.md R204). -/
def evictionCandidate (s : State) : Option Byte := (turnTarget s).filter (fun p => p ≠ s.session.initId)

/-- Timeout or receive error while awaiting (44_coordinator.md R204). -/
def awaitError (s : State) : State :=
  let s₁ := { s with status.errPending := false }
  let cause := errorAbortCause s.status.errCause
  let s₂ :=
    match evictionCandidate s₁ with
    | some p => abort cause (some p) { regRemove p s₁ with status.discReq := true }
    | none => abort cause none s₁
  { s₂ with status.backoff := true }

/-- A step while awaiting: hold, message, error, or none (44_coordinator.md R195, R196, R204). -/
def awaitStep (expected : FuncCode) (accept : State → State) (s : State) : Option State :=
  if s.status.txPending then none
  else if s.status.msgPending then some (awaitMessage expected accept s)
  else if s.status.errPending then some (awaitError s)
  else none

/-- A step in IDLE: R193, R194, R192, or none (44_coordinator.md R190). -/
def idleStep (s : State) : Option State :=
  if s.status.txPending then none
  else if s.status.msgPending then some (drainMessage s)
  else if s.status.errPending then some { s with status.errPending := false }
  else if s.status.backoff = false ∧ s.round.pos = 0 then some (startRound s)
  else none

/-- The coordinator's step, if it has one (44_coordinator.md R190, R206). -/
def coordStep (s : State) : Option State :=
  match s.status.coordState with
  | .complete => some { s with status.coordState := .idle }
  | .idle => idleStep s
  | .awaitAcks => awaitStep .ack acceptAck s
  | .awaitFinals => awaitStep .final acceptFinal s

end Sys2Proof.Machine
end

