-- ==== Sys2Proof/Machine/Responder.lean ====
section
/-! DEFINITION. Machine/Responder: the responder's step (45_responder.md R230 to R247). -/

namespace Sys2Proof.Machine

/-- `emit RXON{timeout: 0}`, the responder's receive (60_exceptions.md R282). -/
def rearm (s : State) : State := rxOn 0 s

/-- `respActive()` (45_responder.md R233). -/
def respActive (s : State) : Bool := s.status.respPhase == .range || decide (0 < s.round.pos.toNat)

/-- The expected code (45_responder.md R234). -/
def expectedCode (s : State) : FuncCode :=
  match s.status.respPhase with
  | .poll => if s.round.pos = 0 then .poll else .ack
  | .range => if s.round.pos = 0 then .range else .final

/-- The expected source (45_responder.md R234): the initiator at position 0, `TARGETS[c]` at a later position c, and none beyond
the targets. DEDUCED (log 13): R234's `TARGETS[0]` is "the initiator", as D43 and R246 say. -/
def expectedSource (s : State) : Option Byte :=
  if s.round.pos = 0 then some s.session.initId else turnTarget s

/-- `mismatch()` (45_responder.md R239). -/
def mismatch (s : State) : State :=
  let r := abort .respMismatch none s
  { r with session.initId := 0 }

/-- The blink delay, in [BLINK_DLY_MIN, BLINK_DLY_MAX], or BLINK_DLY_MIN when MIN ≥ MAX (45_responder.md R247).
`raw` is a free value (log 3). -/
def blinkDelay (t : Timing) (raw : Nat) : Word :=
  if t.blinkDlyMax.toNat ≤ t.blinkDlyMin.toNat then t.blinkDlyMin
  else t.blinkDlyMin + BitVec.ofNat 32 (raw % (t.blinkDlyMax.toNat - t.blinkDlyMin.toNat + 1))

/-- `blinkReply()` (45_responder.md R247). The draw is the same in every node with equal `draws` (DESIGN CHOICE, log 17). -/
def blinkReply (s : State) : State :=
  let d := blinkDelay s.timing (Config.blinkDraw s.draws)
  let s₁ := { s with draws := s.draws + 1 }
  let s₂ := storeC (blinkFrame s₁.seq 0 s₁.eui) s₁
  txRequest .blink (s₂.clen.toNat - s₂.params.blinkLenTrim)
    (.dly (stampAdd s₂.stamps.rx (stampOfWord d))) true 0 s₂

/-- The value a reply embeds (45_responder.md R243), for the scheduled time `t`. -/
def replyValue (t : Stamp) (s : State) : Word :=
  match s.params.twrPairing, s.status.respPhase with
  | .literal, _ => low32 (stampSub t s.stamps.phaseRx)
  | .standard, .poll => low32 (stampSub t s.stamps.phaseRx)
  | .standard, .range => low32 (stampSub s.stamps.phaseRx s.stamps.ackTx)

/-- The code of a reply (45_responder.md R243). -/
def replyCode (s : State) : FuncCode :=
  match s.status.respPhase with
  | .poll => .ack
  | .range => .final

/-- The transmit kind of a reply (45_responder.md R243). -/
def replyKind (s : State) : TxKind :=
  match s.status.respPhase with
  | .poll => .ack
  | .range => .final

/-- `reply()` (45_responder.md R242, R243). -/
def reply (s : State) : State :=
  let t := stampAdd s.stamps.rx (stampOfWord s.timing.replyDelay)
  let s₁ := { s with stamps.schedTx := t }
  let s₂ :=
    storeC (rangingFrame s₁.seq (shortOfId s₁.session.initId) s₁.session.ownId
      (funcCodeByte (replyCode s₁)) (le4 (replyValue t s₁))) s₁
  txRequest (replyKind s₂) s₂.clen.toNat (.dly t) true 0 s₂

/-- `complete()` (45_responder.md R244). -/
def completeRound (s : State) : State :=
  let r := roundReset s
  { r with seq := r.seq + 1, status.roundDone := true }

/-- The phase's end, at the last position: poll to range, or the round completes (45_responder.md R240). -/
def endPhase (s : State) : State :=
  match s.status.respPhase with
  | .poll => { s with status.respPhase := .range, round.pos := 0 }
  | .range => completeRound s

/-- Whether the count has reached the wait position (45_responder.md R240). DEDUCED (log 13): the test is R240's alone, though R249,
derived from it, says that no responder with `WAIT_POS` at or beyond `NODE_COUNT` replies: for 1 and 1, R240 replies. -/
def atWaitPos (s : State) : Bool := s.round.pos == s.session.waitPos

/-- Expected arrival (45_responder.md R240). -/
def arrival (s : State) : State :=
  let s₁ := if s.round.pos = 0 then { s with stamps.phaseRx := s.stamps.rx } else s
  let s₂ := { s₁ with round.pos := s₁.round.pos + 1 }
  let myTurn : Bool := atWaitPos s₂
  let s₃ := if myTurn then reply s₂ else s₂
  let s₄ := if atLastPos s₃ then endPhase s₃ else s₃
  if myTurn then s₄ else rearm s₄

/-- Whether a received config is for this node and acceptable, with its triple (45_responder.md R235). -/
def acceptedConfig (s : State) : Option ConfigTriple :=
  if dstMode s.mem = .extended ∧ dstExt s.mem = s.eui then
    (parseCfg s.mem s.clen).filter (fun t => totalLegal t.total s)
  else none

/-- A ranging config (45_responder.md R235). -/
def onConfig (s : State) : State :=
  match acceptedConfig s with
  | some t =>
    let s₁ := if respActive s then recordAbort .respConfig none s else s
    rearm (deriveSession t.assigned t.init t.total s₁)
  | none => rearm s

/-- A RESET frame (45_responder.md R236). -/
def onReset (s : State) : State :=
  let s₁ := if respActive s then abort .respResetFrame none s else s
  rearm (roundReset s₁)

/-- POLL or RANGE from a node that is not the initiator (45_responder.md R237). -/
def onStranger (s : State) : State := blinkReply (if respActive s then mismatch s else roundReset s)

/-- Whether the held frame's source is not the initiator; with `INIT_ID` = 0 no source is (45_responder.md R237). -/
def fromStranger (s : State) : Bool := s.session.initId == 0 || srcId s.mem != s.session.initId

/-- A POLL of the initiator: a restart if a phase is active, then the first arrival (45_responder.md R238 item 1, R246). -/
def onInitiatorPoll (s : State) : State :=
  arrival (if respActive s then abort .respUnexpectedCode none s else s)

/-- A RANGE of the initiator: in phase RANGE at position 0 the expected arrival, else a phase reset that keeps `INIT_ID`
(45_responder.md R238 items 3, 4, R246). The initiator is `expectedSource` at position 0 (log 13). -/
def onInitiatorRange (s : State) : State :=
  if expectedCode s = .range then arrival s
  else rearm (if respActive s then abort .respUnexpectedCode none s else s)

/-- An ACK or FINAL of code `fc` (45_responder.md R238 items 2 to 4). -/
def onReplyFrame (fc : FuncCode) (s : State) : State :=
  if !respActive s then rearm s
  else if expectedSource s ≠ some (srcId s.mem) then rearm (mismatch s)
  else if expectedCode s ≠ fc then rearm (abort .respUnexpectedCode none s)
  else arrival s

/-- A taken, well-formed frame by its function code (45_responder.md R231, R246). -/
def onFrame (s : State) : State :=
  match funcCodeOf (fcode s.mem) with
  | some .config => onConfig s
  | some .reset => onReset s
  | some .poll => if fromStranger s then onStranger s else onInitiatorPoll s
  | some .range => if fromStranger s then onStranger s else onInitiatorRange s
  | some .ack => onReplyFrame .ack s
  | some .final => onReplyFrame .final s
  | some .blink => rearm s
  | some .bcast => rearm s
  | none => rearm s

/-- A message step (45_responder.md R231). -/
def respMessage (s : State) : State :=
  let t := take s
  if inlenAccepted s && wellFormed t.mem t.clen then onFrame t else rearm t

/-- The responder's step, if it has one (45_responder.md R230, R232). -/
def respStep (s : State) : Option State :=
  if s.status.txPending then none
  else if s.status.msgPending then some (respMessage s)
  else if s.status.errPending then some (rearm { s with status.errPending := false })
  else none

/-- The sequencer's step: the coordinator's or the responder's, while enabled (44_coordinator.md R190, 45_responder.md R230). -/
def sequencerStep (s : State) : Option State :=
  if s.enable then
    match s.role with
    | .none => none
    | .coord => coordStep s
    | .resp => respStep s
  else none

end Sys2Proof.Machine
end

