-- ==== Sys2Proof/Machine/RegMap.lean ====
section
/-! DEFINITION. Machine/RegMap: the host register space (20_memory.md R60 to R72): the register map, the
windows, what a legal read returns and what a legal write of anything but `CMD` does. -/

namespace Sys2Proof.Machine

/-- The registers of 20_memory.md R62. -/
inductive HostReg where
  /-- 0x000 CTRL. -/
  | ctrl
  /-- 0x004 STATUS. -/
  | status
  /-- 0x008 IRQ_EN. -/
  | irqEn
  /-- 0x00C CMD, write-only, reads 0. -/
  | cmd
  /-- 0x010 CMD_STATUS. -/
  | cmdStatus
  /-- 0x014 ARG_TS. -/
  | argTs
  /-- 0x018 ARG_F32. -/
  | argF32
  /-- 0x01C ARG_TIME_LO. -/
  | argTimeLo
  /-- 0x020 ARG_TIME_HI. -/
  | argTimeHi
  /-- 0x024 ARGX_A_LO. -/
  | argxALo
  /-- 0x028 ARGX_A_HI. -/
  | argxAHi
  /-- 0x02C ARGX_B_LO. -/
  | argxBLo
  /-- 0x030 ARGX_B_HI. -/
  | argxBHi
  /-- 0x034 CFG_OUT. -/
  | cfgOut
  /-- 0x038 EUI_LO. -/
  | euiLo
  /-- 0x03C EUI_HI. -/
  | euiHi
  /-- 0x040 SESSION. -/
  | session
  /-- 0x044 ROUND. -/
  | round
  /-- 0x048 SEQ. -/
  | seq
  /-- 0x04C REG_COUNT. -/
  | regCount
  /-- 0x050 TURNAROUND. -/
  | turnaround
  /-- 0x054 REPLY_DELAY. -/
  | replyDelay
  /-- 0x058 RX_TIMEOUT. -/
  | rxTimeout
  /-- 0x05C BACKOFF_CYC. -/
  | backoffCyc
  /-- 0x060 BLINK_DLY_MIN. -/
  | blinkDlyMin
  /-- 0x064 BLINK_DLY_MAX. -/
  | blinkDlyMax
  /-- 0x068 DIST_LIMIT. -/
  | distLimit
  /-- 0x06C LAST_ABORT. -/
  | lastAbort
  /-- 0x070 TX_TS_LO. -/
  | txTsLo
  /-- 0x074 TX_TS_HI. -/
  | txTsHi
  /-- 0x078 RX_TS_LO. -/
  | rxTsLo
  /-- 0x07C RX_TS_HI. -/
  | rxTsHi
  /-- 0x080 INLEN. -/
  | inlen
  /-- 0x084 CLEN. -/
  | clen
  /-- 0x088 TX_POLL_TS_LO. -/
  | txPollTsLo
  /-- 0x08C TX_POLL_TS_HI. -/
  | txPollTsHi
  /-- 0x090 TX_RANGE_TS_LO. -/
  | txRangeTsLo
  /-- 0x094 TX_RANGE_TS_HI. -/
  | txRangeTsHi
  /-- 0x098 LAST_RX_TS_LO. -/
  | lastRxTsLo
  /-- 0x09C LAST_RX_TS_HI. -/
  | lastRxTsHi
  /-- 0x0A0 PHASE_RX_TS_LO. -/
  | phaseRxTsLo
  /-- 0x0A4 PHASE_RX_TS_HI. -/
  | phaseRxTsHi
  /-- 0x0A8 SCHED_TX_TS_LO. -/
  | schedTxTsLo
  /-- 0x0AC SCHED_TX_TS_HI. -/
  | schedTxTsHi
  /-- 0x0B0 ACK_TX_TS_LO. -/
  | ackTxTsLo
  /-- 0x0B4 ACK_TX_TS_HI. -/
  | ackTxTsHi
  /-- 0x0B8 DEC_INFO. -/
  | decInfo
  /-- 0x0BC DEC_SHORT. -/
  | decShort
  /-- 0x0C0 DEC_DST_EXT_LO. -/
  | decDstExtLo
  /-- 0x0C4 DEC_DST_EXT_HI. -/
  | decDstExtHi
  /-- 0x0C8 DEC_SRC_EXT_LO. -/
  | decSrcExtLo
  /-- 0x0CC DEC_SRC_EXT_HI. -/
  | decSrcExtHi
  /-- 0x0D0 DEC_TS. -/
  | decTs
deriving DecidableEq, Repr

/-- The register at a block offset below 0x100 (20_memory.md R62). -/
def hostRegAt (off : Nat) : Option HostReg :=
  match off with
  | 0x000 => some .ctrl
  | 0x004 => some .status
  | 0x008 => some .irqEn
  | 0x00C => some .cmd
  | 0x010 => some .cmdStatus
  | 0x014 => some .argTs
  | 0x018 => some .argF32
  | 0x01C => some .argTimeLo
  | 0x020 => some .argTimeHi
  | 0x024 => some .argxALo
  | 0x028 => some .argxAHi
  | 0x02C => some .argxBLo
  | 0x030 => some .argxBHi
  | 0x034 => some .cfgOut
  | 0x038 => some .euiLo
  | 0x03C => some .euiHi
  | 0x040 => some .session
  | 0x044 => some .round
  | 0x048 => some .seq
  | 0x04C => some .regCount
  | 0x050 => some .turnaround
  | 0x054 => some .replyDelay
  | 0x058 => some .rxTimeout
  | 0x05C => some .backoffCyc
  | 0x060 => some .blinkDlyMin
  | 0x064 => some .blinkDlyMax
  | 0x068 => some .distLimit
  | 0x06C => some .lastAbort
  | 0x070 => some .txTsLo
  | 0x074 => some .txTsHi
  | 0x078 => some .rxTsLo
  | 0x07C => some .rxTsHi
  | 0x080 => some .inlen
  | 0x084 => some .clen
  | 0x088 => some .txPollTsLo
  | 0x08C => some .txPollTsHi
  | 0x090 => some .txRangeTsLo
  | 0x094 => some .txRangeTsHi
  | 0x098 => some .lastRxTsLo
  | 0x09C => some .lastRxTsHi
  | 0x0A0 => some .phaseRxTsLo
  | 0x0A4 => some .phaseRxTsHi
  | 0x0A8 => some .schedTxTsLo
  | 0x0AC => some .schedTxTsHi
  | 0x0B0 => some .ackTxTsLo
  | 0x0B4 => some .ackTxTsHi
  | 0x0B8 => some .decInfo
  | 0x0BC => some .decShort
  | 0x0C0 => some .decDstExtLo
  | 0x0C4 => some .decDstExtHi
  | 0x0C8 => some .decSrcExtLo
  | 0x0CC => some .decSrcExtHi
  | 0x0D0 => some .decTs
  | _ => none

/-- What a word-aligned block offset names (20_memory.md R62, R63, R68, R69). -/
inductive Loc where
  /-- A register. -/
  | reg (r : HostReg)
  /-- The word of the `INBUF` window at this offset. -/
  | inbuf (off : Nat)
  /-- The word of the `CBUF` window at this offset. -/
  | cbuf (off : Nat)
  /-- The word of the `TARGETS` window that holds the entries from this index. -/
  | targets (index : Nat)
  /-- Word `word` (0 to 3) of registry slot `slot`. -/
  | registry (slot word : Nat)
  /-- Word `word` (0 to 3) of per-target index `index`. -/
  | perTarget (index word : Nat)
  /-- A reserved offset: reads 0, writes have no effect (R63). -/
  | reserved
deriving DecidableEq, Repr

/-- The register map (20_memory.md R62, R63). -/
def locate (off : Nat) : Loc :=
  if off < 0x100 then
    match hostRegAt off with
    | some r => .reg r
    | none => .reserved
  else if off < 0x180 then .inbuf off
  else if off < 0x200 then .cbuf off
  else if off < 0x240 then .targets (off - 0x200)
  else if off < 0x400 then .reserved
  else if off < 0x800 then .registry ((off - 0x400) / 16) ((off - 0x400) % 16 / 4)
  else if off < 0xC00 then .perTarget ((off - 0x800) / 16) ((off - 0x800) % 16 / 4)
  else .reserved

/-- The word of `SESSION` (20_memory.md R62). -/
def sessionWord (v : Session) : Word := v.waitPos ++ v.nodeCount ++ v.initId ++ v.ownId

/-- The word of `ROUND` (20_memory.md R62). -/
def roundWord (s : State) : Word := (0 : BitVec 16) ++ BitVec.ofNat 8 (tgtCount s) ++ s.round.pos

/-- The word of `REG_COUNT` (20_memory.md R62). -/
def regCountWord (s : State) : Word := (BitVec.ofNat 8 (regCount s)).zeroExtend 32

/-- The word of `DEC_INFO` (20_memory.md R62, 41_codec.md R129 to R132). -/
def decInfoWord (m : Memory) : Word :=
  frameSeq m ++ fcode m ++ BitVec.ofNat 8 (headerLen m) ++ (0 : BitVec 4)
    ++ addrModeBits (srcMode m) ++ addrModeBits (dstMode m)

/-- The word of `DEC_SHORT` (20_memory.md R62, 41_codec.md R133). -/
def decShortWord (m : Memory) : Word := srcShort m ++ dstShort m

/-- A word of four bytes, the first in bits 7:0 (20_memory.md R65). -/
def wordOfBytes (b0 b1 b2 b3 : Byte) : Word := b3 ++ b2 ++ b1 ++ b0

/-- The word of a byte window at a block offset (20_memory.md R65). -/
def memWord (m : Memory) (off : Nat) : Word :=
  wordOfBytes (m.read off) (m.read (off + 1)) (m.read (off + 2)) (m.read (off + 3))

/-- A word of a registry slot (20_memory.md R69). -/
def registryWord (p : Peer) (word : Nat) : Word :=
  match word with
  | 0 => extLo p.addr
  | 1 => extHi p.addr
  | 2 => p.id.zeroExtend 32
  | _ => p.dist

/-- A word of a per-target index (20_memory.md R69). -/
def perTargetWord (s : State) (i word : Nat) : Word :=
  match word with
  | 0 => stampLo (rtAt s i)
  | 1 => stampHi (rtAt s i)
  | 2 => rd1At s i
  | _ => rd2At s i

/-- What a register reads (20_memory.md R62). -/
def readReg (r : HostReg) (s : State) : Word :=
  match r with
  | .ctrl => ctrlWord s
  | .status => statusWord s.status
  | .irqEn => (irqEnMasked s.irqEn).zeroExtend 32
  | .cmd => 0
  | .cmdStatus => cmdStatusWord s.cmdStatus
  | .argTs => s.args.ts
  | .argF32 => s.args.f32
  | .argTimeLo => stampLo s.args.time
  | .argTimeHi => stampHi s.args.time
  | .argxALo => extLo s.args.xA
  | .argxAHi => extHi s.args.xA
  | .argxBLo => extLo s.args.xB
  | .argxBHi => extHi s.args.xB
  | .cfgOut => cfgOutWord s.cfgOut
  | .euiLo => extLo s.eui
  | .euiHi => extHi s.eui
  | .session => sessionWord s.session
  | .round => roundWord s
  | .seq => s.seq.zeroExtend 32
  | .regCount => regCountWord s
  | .turnaround => s.timing.turnaround
  | .replyDelay => s.timing.replyDelay
  | .rxTimeout => s.timing.rxTimeout
  | .backoffCyc => s.timing.backoffCyc
  | .blinkDlyMin => s.timing.blinkDlyMin
  | .blinkDlyMax => s.timing.blinkDlyMax
  | .distLimit => s.distLimit
  | .lastAbort => lastAbortWord s.lastAbort
  | .txTsLo => stampLo s.stamps.tx
  | .txTsHi => stampHi s.stamps.tx
  | .rxTsLo => stampLo s.stamps.rx
  | .rxTsHi => stampHi s.stamps.rx
  | .inlen => s.inlen.zeroExtend 32
  | .clen => s.clen.zeroExtend 32
  | .txPollTsLo => stampLo s.stamps.txPoll
  | .txPollTsHi => stampHi s.stamps.txPoll
  | .txRangeTsLo => stampLo s.stamps.txRange
  | .txRangeTsHi => stampHi s.stamps.txRange
  | .lastRxTsLo => stampLo s.stamps.lastRx
  | .lastRxTsHi => stampHi s.stamps.lastRx
  | .phaseRxTsLo => stampLo s.stamps.phaseRx
  | .phaseRxTsHi => stampHi s.stamps.phaseRx
  | .schedTxTsLo => stampLo s.stamps.schedTx
  | .schedTxTsHi => stampHi s.stamps.schedTx
  | .ackTxTsLo => stampLo s.stamps.ackTx
  | .ackTxTsHi => stampHi s.stamps.ackTx
  | .decInfo => decInfoWord s.mem
  | .decShort => decShortWord s.mem
  | .decDstExtLo => extLo (dstExt s.mem)
  | .decDstExtHi => extHi (dstExt s.mem)
  | .decSrcExtLo => extLo (srcExt s.mem)
  | .decSrcExtHi => extHi (srcExt s.mem)
  | .decTs => frameTs s.mem

/-- What a legal read returns (20_memory.md R61 to R63, R69). -/
def readLoc (l : Loc) (s : State) : Word :=
  match l with
  | .reg r => readReg r s
  | .inbuf off => memWord s.mem off
  | .cbuf off => memWord s.mem off
  | .targets k => wordOfBytes (targetAt s k) (targetAt s (k + 1)) (targetAt s (k + 2)) (targetAt s (k + 3))
  | .registry slot word => registryWord (regSlot s slot) word
  | .perTarget index word => perTargetWord s index word
  | .reserved => 0

/-- Whether a `CTRL` write finds a round to abort (44_coordinator.md R220). -/
def roundInProgress (s : State) : Bool :=
  match s.role with
  | .none => false
  | .coord => s.status.coordState == .awaitAcks || s.status.coordState == .awaitFinals
  | .resp => respActive s

/-- A write of `CTRL` that changes `ENABLE` or `ROLE` (44_coordinator.md R220). -/
def changeCtrl (enable : Bool) (role : Role) (s : State) : State :=
  let s₁ := if roundInProgress s then recordAbort .disabled none s else s
  let s₂ := roundReset { s₁ with status.coordState := .idle }
  let s₃ := { s₂ with enable := enable, role := role, status.backoff := false }
  if enable ∧ role = .resp then rearm s₃ else s₃

/-- A host write of `CTRL` (10_state.md R21, 44_coordinator.md R220). -/
def writeCtrl (v : Word) (s : State) : State :=
  let enable := v.getLsbD 0
  let role := roleOf (v.extractLsb' 1 2)
  if enable = s.enable ∧ role = s.role then s else changeCtrl enable role s

/-- A legal write of a register by its access class (10_state.md R47); a read-only register keeps its
value. `CMD` is `runCommand`'s, in Machine/Agents.lean. -/
def writeReg (r : HostReg) (v : Word) (s : State) : State :=
  match r with
  | .ctrl => writeCtrl v s
  | .status => { s with status := statusClear v s.status }
  | .irqEn => { s with irqEn := irqEnMasked (v.extractLsb' 0 8) }
  | .cmd => s
  | .cmdStatus => s
  | .argTs => { s with args.ts := v }
  | .argF32 => { s with args.f32 := v }
  | .argTimeLo => { s with args.time := setStampLo s.args.time v }
  | .argTimeHi => { s with args.time := setStampHi s.args.time v }
  | .argxALo => { s with args.xA := setExtLo s.args.xA v }
  | .argxAHi => { s with args.xA := setExtHi s.args.xA v }
  | .argxBLo => { s with args.xB := setExtLo s.args.xB v }
  | .argxBHi => { s with args.xB := setExtHi s.args.xB v }
  | .cfgOut => s
  | .euiLo => { s with eui := setExtLo s.eui v }
  | .euiHi => { s with eui := setExtHi s.eui v }
  | .session => s
  | .round => s
  | .seq => { s with seq := v.extractLsb' 0 8 }
  | .regCount => s
  | .turnaround => { s with timing.turnaround := v }
  | .replyDelay => { s with timing.replyDelay := v }
  | .rxTimeout => { s with timing.rxTimeout := v }
  | .backoffCyc => { s with timing.backoffCyc := v }
  | .blinkDlyMin => { s with timing.blinkDlyMin := v }
  | .blinkDlyMax => { s with timing.blinkDlyMax := v }
  | .distLimit => { s with distLimit := v }
  | .lastAbort => s
  | .txTsLo => s
  | .txTsHi => s
  | .rxTsLo => s
  | .rxTsHi => s
  | .inlen => if s.role = .none then { s with inlen := v.extractLsb' 0 16 } else s
  | .clen => s
  | .txPollTsLo => s
  | .txPollTsHi => s
  | .txRangeTsLo => s
  | .txRangeTsHi => s
  | .lastRxTsLo => s
  | .lastRxTsHi => s
  | .phaseRxTsLo => s
  | .phaseRxTsHi => s
  | .schedTxTsLo => s
  | .schedTxTsHi => s
  | .ackTxTsLo => s
  | .ackTxTsHi => s
  | .decInfo => s
  | .decShort => s
  | .decDstExtLo => s
  | .decDstExtHi => s
  | .decSrcExtLo => s
  | .decSrcExtHi => s
  | .decTs => s

/-- The four bytes of a written word, bits 7:0 first (20_memory.md R65). -/
def bytesOfWord (v : Word) : List Byte := le4 v

/-- A legal write at a location other than `CMD` (20_memory.md R61, R63, R68, R69). -/
def writeLoc (l : Loc) (v : Word) (s : State) : State :=
  match l with
  | .reg r => writeReg r v s
  | .inbuf off => if s.role = .none then { s with mem := s.mem.store off 4 (bytesOfWord v) } else s
  | .cbuf _ => s
  | .targets _ => s
  | .registry _ _ => s
  | .perTarget _ _ => s
  | .reserved => s

end Sys2Proof.Machine
end

