-- ==== Sys2Proof/Machine/Agents.lean ====
section
/-! DEFINITION. Machine/Agents: one step of each agent (10_state.md R20), and the host access that runs a
command (20_memory.md R61, R64, R71). -/

namespace Sys2Proof.Machine

/-- Block offset of `CMD` (20_memory.md R62). -/
def cmdOffset : Nat := 0x00C

/-- A legal access: size 4, aligned, inside the block (20_memory.md R61, R64). -/
def accessLegal (size off : Nat) : Bool := size == 4 && off % 4 == 0 && decide (off < 0x1000)

/-- An access that is not legal: `ACCESS_ERR` and nothing else (20_memory.md R64). -/
def illegalAccess (s : State) : State := { s with status.accessErr := true }

/-- A command word written to `CMD`: executed, or refused by the decoder's name (20_memory.md R71, 30_encoding.md
R93, R94). -/
def runCommand (w : Word) (s : State) : Result :=
  match decode w with
  | .instr i => exec i s
  | .illegalOpcode => .next (refuse (fieldOpc w) .illegalOpcode s)
  | .reservedField => .next (refuse (fieldOpc w) .reservedField s)

/-- `MemRead(off, size)`: the value it returns is left in `readData` (20_memory.md R61, R64, R72). -/
def hostRead (size off : Nat) (s : State) : State :=
  if accessLegal size off then { s with readData := readLoc (locate off) s }
  else { illegalAccess s with readData := 0 }

/-- `MemWrite(off, size, v)` (20_memory.md R61, R64, R71). -/
def hostWrite (size off : Nat) (v : Word) (s : State) : Result :=
  if accessLegal size off then
    if off = cmdOffset then runCommand v s else .next (writeLoc (locate off) v s)
  else .next (illegalAccess s)

/-- One host access at a block offset. -/
def hostAccess (a : HostAccess) (s : State) : Result :=
  match a with
  | .read size off => .next (hostRead size off s)
  | .write size off v => hostWrite size off v s

/-- Whether a bus address is one of the block's 4096 (20_memory.md R79). -/
def inBlock (base addr : Nat) : Bool := decide (base ≤ addr ∧ addr < base + 0x1000)

/-- A host access at an absolute bus address (20_memory.md R79); outside the block it is not the block's and
changes nothing here (log 10). -/
def busAccess (a : HostAccess) (s : State) : Result :=
  match a with
  | .read size addr =>
    if inBlock s.params.blockBase addr then .next (hostRead size (addr - s.params.blockBase) s) else .next s
  | .write size addr v =>
    if inBlock s.params.blockBase addr then hostWrite size (addr - s.params.blockBase) v s else .next s

/-- One action; an agent without an enabled step leaves the state as it is. -/
def act (a : Action) (s : State) : Result :=
  match a with
  | .host h => hostAccess h s
  | .bus h => busAccess h s
  | .radio e => .next (captureEvent e s)
  | .sequencer => .next ((sequencerStep s).getD s)
  | .backoffTimer => .next ((backoffStep s).getD s)
  | .blockReset => .next (blockReset s)

/-- The action that comes next, and the state that waits for it: the head of the schedule, or a free one
where the schedule is empty (log 1; the same one in every node with equal `envTick`, log 17). -/
def nextAction (s : State) : Action × State :=
  match s.schedule with
  | a :: rest => (a, { s with schedule := rest })
  | [] => (Config.environment s.envTick, { s with envTick := s.envTick + 1 })

/-- The command word of a table row: the low `nbits` bits of `w`, every other bit 0. -/
def tableWord (nbits w : Nat) : Word := BitVec.ofNat 32 (w % 2 ^ nbits)

/-- The host's write of the command word `w` to `CMD`. -/
def commandWrite (w : Word) : Action := .host (.write 4 cmdOffset w)

end Sys2Proof.Machine
end

