-- ==== Sys2Proof/Machine/Step.lean ====
section
/-! DEFINITION. Machine/Step: one step is the next action (00_scope.md R12, 10_state.md R20). -/

namespace Sys2Proof.Machine

/-- One step of the machine: the next action happens, atomically. -/
def step (s : State) : Host.Outcome State Fault Refusal :=
  act (nextAction s).1 (nextAction s).2

/-- `s` with the host about to write the command word `w` to `CMD`: the block fetches nothing (10_state.md R26), so
a command reaches it only by that write (log 1). -/
def State.withFetchWord (s : State) (nbits w : Nat) : State :=
  { s with schedule := commandWrite (tableWord nbits w) :: s.schedule }

end Sys2Proof.Machine
end

