-- ==== Sys2Proof/Machine/System.lean ====
section
/-! DEFINITION. Machine/System: several nodes on one radio medium (60_exceptions.md R284). Nodes share no
state; a TX of one node may be delivered to any of the others, each with a timestamp of its own clock. The free values of
Config are the same functions in every node (log 17). -/

namespace Sys2Proof.Machine

/-- A set of nodes. -/
structure System where
  /-- Each node's block, by node number. -/
  nodes : List State
deriving DecidableEq, Repr

/-- One event of a system. -/
inductive NetEvent where
  /-- Node `node` takes its own next step. -/
  | own (node : Nat)
  /-- Request number `k` of what node `src` asked its radio for is received by node `dst` at time `ts` of `dst`'s clock. -/
  | deliver (src k dst : Nat) (ts : Stamp)
deriving DecidableEq, Repr

/-- The frame of a `TX` request (60_exceptions.md R280). -/
def requestFrame : RadioRequest → Option (List Byte)
  | .tx frame _ _ _ => some frame
  | .rxon _ => none

/-- The state a node takes, kept where the outcome is no next state. -/
def nextOr (s : State) : Result → State
  | .next t => t
  | .fault _ => s
  | .refused _ => s

/-- The frame node `src` sent as request `k`, counted over its block resets, which do not reset its radio
(70_reset_and_hazards.md R292). -/
def sentFrame (y : System) (src k : Nat) : Option (List Byte) :=
  (y.nodes[src]?).bind fun s => ((radioLog s)[k]?).bind requestFrame

/-- The reception of a frame (60_exceptions.md R270, R284). -/
def receive (f : List Byte) (ts : Stamp) (s : State) : State :=
  onRxGood f (BitVec.ofNat 16 f.length) ts s

/-- One event of a system; a delivery that no sent frame backs, or to the sender, changes nothing (log 11). -/
def netStep (e : NetEvent) (y : System) : System :=
  match e with
  | .own n => { nodes := y.nodes.modify n (fun s => nextOr s (step s)) }
  | .deliver src k dst ts =>
    match sentFrame y src k with
    | some f => if src = dst then y else { nodes := y.nodes.modify dst (receive f ts) }
    | none => y

end Sys2Proof.Machine
end

