-- ==== Sys2Proof/Safety.lean ====
section
/-! DEFINITION. Safety: the invariant of the block, the states a run can reach, when the block is quiescent,
and the spec's assumptions on the radio, in the terms the claims use. -/

namespace Sys2Proof.Machine

/-- The parameters are in range (00_scope.md R8). -/
abbrev ParamsOk (s : State) : Prop := s.params.Legal

/-- The frame buffers keep their canonical form and their addresses (10_state.md R38, R40). -/
abbrev MemOk (s : State) : Prop :=
  s.mem.Wf ∧ ∀ c ∈ s.mem, inbufBase ≤ c.1 ∧ c.1 < cbufBase + bufSize

/-- `CLEN` ≤ 127 and `CBUF` is zero from `CLEN` on (10_state.md R40, 41_codec.md R122). -/
abbrev CodecOk (s : State) : Prop :=
  s.clen.toNat ≤ frameMax ∧ ∀ k < bufSize, s.clen.toNat ≤ k → cbufByte s.mem k = 0

/-- `REG_COUNT` ≤ CAP and live addresses are pairwise distinct (42_registry.md R150). -/
abbrev RegistryOk (s : State) : Prop :=
  s.registry.length ≤ s.params.cap ∧ (s.registry.map Peer.addr).Nodup

/-- `TGT_COUNT` ≤ CAP (10_state.md R30) and 1 ≤ `NODE_COUNT` ≤ MAX_NODES (43_session.md R170). -/
abbrev SessionOk (s : State) : Prop :=
  s.session.targets.length ≤ s.params.cap ∧ 1 ≤ s.session.nodeCount.toNat
    ∧ s.session.nodeCount.toNat ≤ s.params.maxNodes

/-- `ROUND_POS` never exceeds CAP (44_coordinator.md R221) and each per-target array has CAP entries (10_state.md R36). -/
abbrev RoundOk (s : State) : Prop :=
  s.round.pos.toNat ≤ s.params.cap ∧ s.round.rt.length = s.params.cap
    ∧ s.round.rd1.length = s.params.cap ∧ s.round.rd2.length = s.params.cap

/-- Which sequencer state goes with which role: outside COORD the coordinator is in IDLE without backoff, outside RESP
the responder is in the poll phase, no round position is left over in IDLE or COMPLETE, and a responder without an
initiator is in no phase (44_coordinator.md R191, R217, R220; 45_responder.md R239, R249; 60_exceptions.md R266). -/
abbrev SequencerOk (s : State) : Prop :=
  (s.role ≠ .coord → s.status.coordState = .idle ∧ s.status.backoff = false)
    ∧ (s.role ≠ .resp → s.status.respPhase = .poll)
    ∧ (s.role ≠ .resp → s.status.coordState = .idle → s.round.pos = 0)
    ∧ (s.status.coordState = .complete → s.round.pos = 0)
    ∧ (s.status.backoff = true → s.status.coordState = .idle)
    ∧ (s.role = .resp → s.session.initId = 0 → s.round.pos = 0 ∧ s.status.respPhase = .poll)

/-- A responder's count stays below the last position, or at most 1 where `NODE_COUNT` is 1, and a session of one node has at most
one target (43_session.md R170; 45_responder.md R240, R249). -/
abbrev ResponderOk (s : State) : Prop :=
  (s.role = .resp → s.round.pos.toNat + 1 < s.session.nodeCount.toNat
      ∨ (s.session.nodeCount = 1 ∧ s.round.pos.toNat ≤ 1))
    ∧ (s.session.nodeCount = 1 → s.session.targets.length ≤ 1)

/-- `IRQ_EN` bit 2 is 0 (10_state.md R24), an outstanding transmission has a kind (R39), and an abort without an evicted
peer records id 0 (60_exceptions.md R266). -/
abbrev FlagsOk (s : State) : Prop :=
  s.irqEn.getLsbD 2 = false
    ∧ (s.status.txPending = true → s.status.txKind ≠ .none)
    ∧ (s.lastAbort.evictV = false → s.lastAbort.evictId = 0)

/-- The invariant every step keeps. -/
abbrev State.Inv (s : State) : Prop :=
  ParamsOk s ∧ MemOk s ∧ CodecOk s ∧ RegistryOk s ∧ SessionOk s ∧ RoundOk s ∧ SequencerOk s ∧ ResponderOk s
    ∧ FlagsOk s

/-- The states a machine with parameters `p` reaches from reset under some interleaving of agent steps and some
environment (10_state.md R20, 60_exceptions.md R275). -/
inductive Reachable (p : Params) : State → Prop where
  /-- The state after reset. -/
  | reset : Reachable p (State.resetOf p)
  /-- Any action at any point. -/
  | act {s t : State} (a : Action) (h : Reachable p s) (e : Machine.act a s = .next t) : Reachable p t

/-- No agent of the block has an enabled step (70_reset_and_hazards.md R306). -/
abbrev Quiescent (s : State) : Prop := sequencerStep s = none ∧ backoffStep s = none

/-- The mode of the newest transmission in a radio log. -/
def newestTxMode (out : List RadioRequest) : Option TxMode :=
  out.foldl (fun acc r =>
    match r with
    | .tx _ mode _ _ => some mode
    | .rxon _ => acc) none

/-- The receive window the newest request arms, with its timeout (60_exceptions.md R280);
none where no request was made or the newest arms none. DESIGN CHOICE (log 16): a later request takes the place of a window
armed earlier. -/
def armedWindow (out : List RadioRequest) : Option Word :=
  match out.getLast? with
  | some (.rxon t) => some t
  | some (.tx _ _ true t) => some t
  | some (.tx _ _ false _) => none
  | none => none

/-- The read of the word at block offset `off` (20_memory.md R61). -/
def readAt (off : Nat) (s : State) : Word := (hostRead 4 off s).readData

/-- `CBUF` of `t` is the frame `f`, zero-filled, `CLEN` its length, and every other byte is as in `s` (41_codec.md R122). -/
abbrev HoldsFrame (f : List Byte) (s t : State) : Prop :=
  t.clen.toNat = f.length
    ∧ (∀ k < 128, t.mem.read (0x180 + k) = f.getD k 0)
    ∧ ∀ a, (a < 0x180 ∨ 0x200 ≤ a) → t.mem.read a = s.mem.read a

/-- `INBUF[0..INLEN)` (10_state.md R38). -/
def mailboxFrame (s : State) : List Byte := (List.range s.inlen.toNat).map fun k => s.mem.read (0x100 + k)

/-- The coordinator is about to take a message in state `st` (44_coordinator.md R190, R195). -/
abbrev CoordTakes (st : CoordState) (s : State) : Prop :=
  s.enable = true ∧ s.role = .coord ∧ s.status.coordState = st ∧ s.status.txPending = false
    ∧ s.status.msgPending = true

/-- The coordinator takes a message while it awaits ACKs or FINALs (44_coordinator.md R196). -/
abbrev AwaitTakes (s : State) : Prop := CoordTakes .awaitAcks s ∨ CoordTakes .awaitFinals s

/-- The responder is about to take a message (45_responder.md R230). -/
abbrev RespTakes (s : State) : Prop :=
  s.enable = true ∧ s.role = .resp ∧ s.status.txPending = false ∧ s.status.msgPending = true

/-- The frame a step takes is not oversized and is well formed (44_coordinator.md R196, 41_codec.md R137). -/
abbrev TakesWellFormed (s : State) : Prop :=
  s.inlen.toNat ≤ 127 ∧ wellFormed (take s).mem (take s).clen = true

/-- The state `u` after `abort(cause)` in role COORD (60_exceptions.md R266, whose pseudocode gives `EVICT_ID` 0; log 18). -/
def coordAborted (cause : AbortCause) (u : State) : State :=
  { u with
    round := { pos := 0, rt := List.replicate u.params.cap 0, rd1 := List.replicate u.params.cap 0,
               rd2 := List.replicate u.params.cap 0 }
    status := { u.status with respPhase := .poll, roundFail := true, coordState := .idle }
    lastAbort := { cause := cause, evictId := 0, evictV := false } }

/-- The state `u` after `abort(cause)` in role RESP (60_exceptions.md R266, whose pseudocode gives `EVICT_ID` 0; log 18). -/
def respAborted (cause : AbortCause) (u : State) : State :=
  { u with
    round := { pos := 0, rt := List.replicate u.params.cap 0, rd1 := List.replicate u.params.cap 0,
               rd2 := List.replicate u.params.cap 0 }
    status := { u.status with respPhase := .poll, roundFail := true }
    lastAbort := { cause := cause, evictId := 0, evictV := false } }

/-- The number of transmissions in a radio log. -/
def txCount (out : List RadioRequest) : Nat :=
  out.countP fun r =>
    match r with
    | .tx _ _ _ _ => true
    | .rxon _ => false

/-- The exact distance of four intervals, in metres (44_coordinator.md R214). -/
def exactDist (v : Intervals) : ℚ := (tofNum v : ℚ) / (tofDen v : ℚ) * 299792458 / 63897600000

/-- The value of a finite binary32 pattern: sign, 8-bit exponent, 23-bit fraction (IEEE 754, 44_coordinator.md R216). -/
def f32Value (w : Word) : ℚ :=
  let frac : ℚ := (w.extractLsb' 0 23).toNat
  let e : Nat := (w.extractLsb' 23 8).toNat
  let mag : ℚ := if e = 0 then frac / 2 ^ 149 else (2 ^ 23 + frac) * 2 ^ e / 2 ^ 150
  if w.getLsbD 31 then -mag else mag

/-- A finite binary32 pattern: neither infinity nor NaN. -/
abbrev F32Finite (w : Word) : Prop := (w.extractLsb' 23 8).toNat < 255

/-- `w` is a finite binary32 pattern nearest to `q`; where another value is as near, `w` has an even significand
(44_coordinator.md R216). -/
abbrev NearestEven (q : ℚ) (w : Word) : Prop :=
  F32Finite w ∧ ∀ y : Word, F32Finite y →
    |f32Value w - q| ≤ |f32Value y - q|
      ∧ (|f32Value y - q| = |f32Value w - q| → f32Value y ≠ f32Value w → w.getLsbD 0 = false)

/-- Whether a transmission of this mode may complete at `ts` (60_exceptions.md R281 (b)). -/
def completesAt (ts : Stamp) (mode : TxMode) : Bool :=
  match mode with
  | .imm => true
  | .dly t => ts == t

/-- Whether a request made before a block reset is a transmission that may complete at `ts`. -/
def mayStillComplete (ts : Stamp) (r : RadioRequest) : Bool :=
  match r with
  | .tx _ mode _ _ => completesAt ts mode
  | .rxon _ => false

/-- What the spec assumes of the radio at one event: a delayed transmission completes at its time (60_exceptions.md R281
(b)), and a window with timeout 0 never times out (R282). Every other event may come at any time (R281), so a timeout may come
where no window is known to be armed. The radio is not reset by the block reset (70_reset_and_hazards.md R292): its requests are
`radioLog`, and a transmission asked for before a block reset may complete after it (log 16). These bind the environment, not the
block: no step checks them. -/
def radioMay (s : State) (e : RadioEvent) : Bool :=
  match e with
  | .rxGood _ _ _ => true
  | .rxError => true
  | .rxTimeout => decide (armedWindow (radioLog s) ≠ some 0)
  | .txDone ts =>
    !s.status.txPending || (newestTxMode s.out).all (completesAt ts) || s.outBefore.any (mayStillComplete ts)

end Sys2Proof.Machine
end

