-- ==== Sys2Proof/Certificates/Slice0/Obligations.lean ====
section
/-! DEFINITION. Certificates/Slice0/Obligations: the statements about DSTWR-RC that the provers prove. Each names the rules
of spec/ it formalises in OBLIGATIONS.json. A statement about a next state gives that state whole: `t = { s with … }` says
that every field it does not name is unchanged, and `HoldsFrame` says the same of every byte of memory outside `CBUF`. -/

open Sys2Proof Sys2Proof.Machine

/-! ### Command words -/

/-- Decoding the word of a well-formed command gives the command back, for every value of every operand. -/
def Obligations.DecodeOfEncode : Prop :=
  ∀ i : Instr, i.wellFormed = true → decode (encode i) = .instr i

/-- A word that decodes is the word of the command it decodes to, and that command is well formed. -/
def Obligations.EncodeOfDecode : Prop :=
  ∀ (w : Word) (i : Instr), decode w = .instr i → encode i = w ∧ i.wellFormed = true

/-- The three things a write of a word to `CMD` can be, by its opcode and by the match and mask of its row. -/
def Obligations.EveryWordRunsOrIsRefused : Prop :=
  ∀ (w : Word) (s : State),
    let opc := w.extractLsb' 0 8
    (matchAndMask opc.toNat = none ↔
        opc = 0x00 ∨ (0x07 ≤ opc ∧ opc ≤ 0x0F) ∨ (0x15 ≤ opc ∧ opc ≤ 0x1F) ∨ 0x24 ≤ opc)
      ∧ (matchAndMask opc.toNat = none →
        act (.host (.write 4 0x00C w)) s = .next { s with cmdStatus := ⟨opc, false, .illegalOpcode, 0⟩ })
      ∧ ∀ m k : Word, matchAndMask opc.toNat = some (m, k) →
        (w &&& k ≠ m →
            act (.host (.write 4 0x00C w)) s = .next { s with cmdStatus := ⟨opc, false, .reservedField, 0⟩ })
          ∧ (w &&& k = m → ∃ i, decode w = .instr i ∧ i.opcode = opc ∧ act (.host (.write 4 0x00C w)) s = exec i s)

/-- Words written out from 30_encoding.md and from the command rules' own examples, with what they decode to. -/
def Obligations.SampleWordsDecode : Prop :=
  decode 0x00000001 = .instr .buildBlink ∧ decode 0x00000002 = .instr .buildBcast
    ∧ decode 0x03080403 = .instr (.buildConfig 4 8 3) ∧ decode 0x00080504 = .instr (.buildRanging 0x05 8)
    ∧ decode 0x00040404 = .instr (.buildRanging 0x04 4) ∧ decode 0x00000005 = .instr .parse
    ∧ decode 0x00000006 = .instr .parseConfig ∧ decode 0x00000010 = .instr .regContains
    ∧ decode 0x00000011 = .instr .regAdd ∧ decode 0x00000C12 = .instr (.regRemove 12)
    ∧ decode 0x00001413 = .instr (.regUpdateId 20) ∧ decode 0x00000814 = .instr (.regSetDist 8)
    ∧ decode 0x03040C20 = .instr (.sessionSet 12 4 3) ∧ decode 0x00000121 = .instr (.sendConfig 1)
    ∧ decode 0x00000022 = .instr (.txSend 0) ∧ decode 0x00000322 = .instr (.txSend 3)
    ∧ decode 0x00000123 = .instr (.rxEnable 1)
    ∧ decode 0x00000100 = .illegalOpcode ∧ decode 0x01000004 = .reservedField
    ∧ decode 0x00000422 = .reservedField ∧ decode 0x00000223 = .reservedField

/-- A step whose next action is the host's write of a word to `CMD` is `exec` of the command the word decodes to, in the
state the action waited for; so the very next step after `withFetchWord` runs the command its decoder reads. That
the coming actions stand in `schedule` is the model's choice (log 1). -/
def Obligations.StepRunsTheWrittenCommand : Prop :=
  (∀ (s : State) (rest : List Action) (w : Word) (i : Instr),
      s.schedule = .host (.write 4 0x00C w) :: rest → decode w = .instr i →
        step s = exec i { s with schedule := rest })
    ∧ ∀ (s : State) (nbits w : Nat) (i : Instr),
      decodeTableWord nbits w = some i → step (s.withFetchWord nbits w) = exec i s

/-! ### Every step -/

/-- The invariant of Safety.lean is kept by every step, whatever action comes. -/
def Obligations.StepKeepsInvariant : Prop :=
  ∀ s t : State, s.Inv → step s = .next t → t.Inv

/-- The state after reset has the invariant, for every legal value of the parameters; those of `State.reset` are the model's
choice (log 2). -/
def Obligations.ResetHasInvariant : Prop :=
  (∀ p : Params, p.Legal → (State.resetOf p).Inv) ∧ State.reset.Inv

/-- Nothing stops the block: every action in every state, and so every step, answers a next state. -/
def Obligations.EveryStepAnswersANextState : Prop :=
  (∀ (a : Action) (s : State), ∃ t, act a s = .next t) ∧ ∀ s : State, ∃ t, step s = .next t

/-! ### The codec commands -/

/-- BUILD_BLINK. -/
def Obligations.BuildBlinkResult : Prop :=
  (∀ a b c : Byte,
      decode (packWord 0x01 a b c) = if a = 0 ∧ b = 0 ∧ c = 0 then .instr .buildBlink else .reservedField)
    ∧ ∀ s : State,
      (s.role ≠ .none → exec .buildBlink s = .next { s with cmdStatus := ⟨0x01, false, .wrongRole, 0⟩ })
        ∧ (s.role = .none → ∃ t, exec .buildBlink s = .next t
          ∧ t = { s with mem := t.mem, clen := 24, cmdStatus := ⟨0x01, true, .none, 0⟩ }
          ∧ HoldsFrame
              ([0x41, 0xCC, s.seq, 0xCA, 0xDE] ++ le8 s.args.xA ++ le8 s.args.xB ++ [0x01, 0x00, 0x00]) s t)

/-- BUILD_BCAST. -/
def Obligations.BuildBcastResult : Prop :=
  (∀ a b c : Byte,
      decode (packWord 0x02 a b c) = if a = 0 ∧ b = 0 ∧ c = 0 then .instr .buildBcast else .reservedField)
    ∧ ∀ s : State,
      (s.role ≠ .none → exec .buildBcast s = .next { s with cmdStatus := ⟨0x02, false, .wrongRole, 0⟩ })
        ∧ (s.role = .none → ∃ t, exec .buildBcast s = .next t
          ∧ t = { s with mem := t.mem, clen := 18, cmdStatus := ⟨0x02, true, .none, 0⟩ }
          ∧ HoldsFrame
              ([0x41, 0xC8, s.seq, 0xCA, 0xDE, 0xFF, 0xFF] ++ le8 s.args.xB ++ [0x02, 0x00, 0x00]) s t)

/-- BUILD_CONFIG. -/
def Obligations.BuildConfigResult : Prop :=
  ∀ init assigned total : Byte,
    decode (packWord 0x03 init assigned total) = .instr (.buildConfig init assigned total)
      ∧ ∀ s : State,
        (s.role ≠ .none →
            exec (.buildConfig init assigned total) s = .next { s with cmdStatus := ⟨0x03, false, .wrongRole, 0⟩ })
          ∧ (s.role = .none → ∃ t, exec (.buildConfig init assigned total) s = .next t
            ∧ t = { s with mem := t.mem, clen := 27, cmdStatus := ⟨0x03, true, .none, 0⟩ }
            ∧ HoldsFrame
                ([0x41, 0xCC, s.seq, 0xCA, 0xDE] ++ le8 s.args.xA ++ le8 s.args.xB
                  ++ [0x03, init, assigned, total, 0x00, 0x00]) s t)

/-- BUILD_RANGING: WRONG_ROLE before BAD_OPERAND; the reply delay only in ACK and FINAL. -/
def Obligations.BuildRangingResult : Prop :=
  ∀ fc src c : Byte,
    decode (packWord 0x04 fc src c) = (if c = 0 then .instr (.buildRanging fc src) else .reservedField)
      ∧ ∀ s : State,
        (s.role ≠ .none →
            exec (.buildRanging fc src) s = .next { s with cmdStatus := ⟨0x04, false, .wrongRole, 0⟩ })
          ∧ (s.role = .none → fc < 0x04 ∨ 0x08 < fc →
            exec (.buildRanging fc src) s = .next { s with cmdStatus := ⟨0x04, false, .badOperand, 0⟩ })
          ∧ (s.role = .none → 0x04 ≤ fc → fc ≤ 0x08 → ∃ t, exec (.buildRanging fc src) s = .next t
            ∧ t = { s with mem := t.mem, clen := if fc = 0x05 ∨ fc = 0x07 then 16 else 12,
                           cmdStatus := ⟨0x04, true, .none, 0⟩ }
            ∧ HoldsFrame
                ([0x41, 0x88, s.seq, 0xCA, 0xDE] ++ le2 (s.args.xA.extractLsb' 0 16) ++ [src, 0x00, fc]
                  ++ (if fc = 0x05 ∨ fc = 0x07 then le4 s.args.ts else []) ++ [0x00, 0x00]) s t)

/-- PARSE: the mailbox is read, not consumed; a frame over 127 bytes gives OK = 0 and changes no buffer. -/
def Obligations.ParseResult : Prop :=
  (∀ a b c : Byte,
      decode (packWord 0x05 a b c) = if a = 0 ∧ b = 0 ∧ c = 0 then .instr .parse else .reservedField)
    ∧ ∀ s : State,
      (s.role ≠ .none → exec .parse s = .next { s with cmdStatus := ⟨0x05, false, .wrongRole, 0⟩ })
        ∧ (s.role = .none → s.inlen.toNat ≤ 127 → ∃ t, exec .parse s = .next t
          ∧ t = { s with mem := t.mem, clen := t.clen, cmdStatus := ⟨0x05, true, .none, 0⟩ }
          ∧ HoldsFrame (mailboxFrame s) s t)
        ∧ (s.role = .none → 127 < s.inlen.toNat →
          exec .parse s = .next { s with cmdStatus := ⟨0x05, false, .none, 0⟩ })

/-- PARSE_CONFIG: the triple is taken from the payload offset where the function code and the length allow it. -/
def Obligations.ParseConfigResult : Prop :=
  (∀ a b c : Byte,
      decode (packWord 0x06 a b c) = if a = 0 ∧ b = 0 ∧ c = 0 then .instr .parseConfig else .reservedField)
    ∧ ∀ s : State,
      let po := headerLen s.mem + 1
      let covered := fcode s.mem = 0x03 ∧ po + 3 ≤ s.clen.toNat
      (s.role ≠ .none → exec .parseConfig s = .next { s with cmdStatus := ⟨0x06, false, .wrongRole, 0⟩ })
        ∧ (s.role = .none → covered →
          exec .parseConfig s = .next
            { s with
              cfgOut :=
                { init := s.mem.read (0x180 + po), assigned := s.mem.read (0x180 + (po + 1))
                  total := s.mem.read (0x180 + (po + 2)) }
              cmdStatus := ⟨0x06, true, .none, 0⟩ })
        ∧ (s.role = .none → ¬ covered → exec .parseConfig s = .next { s with cmdStatus := ⟨0x06, false, .none, 0⟩ })

/-! ### The registry commands -/

/-- REG_CONTAINS: the least slot with the address answers, in every role and state. -/
def Obligations.RegContainsResult : Prop :=
  (∀ a b c : Byte,
      decode (packWord 0x10 a b c) = if a = 0 ∧ b = 0 ∧ c = 0 then .instr .regContains else .reservedField)
    ∧ ∀ s : State,
      ((∀ p ∈ s.registry, p.addr ≠ s.args.xA) →
          exec .regContains s = .next { s with cmdStatus := ⟨0x10, false, .none, 0⟩ })
        ∧ ∀ (k : Nat) (p : Peer), s.registry[k]? = some p → p.addr = s.args.xA →
          (∀ q ∈ s.registry.take k, q.addr ≠ s.args.xA) →
            exec .regContains s = .next { s with cmdStatus := ⟨0x10, true, .none, p.id⟩ }

/-- REG_ADD: BUSY in a coordinator round; else a new entry at the end with its stride id, or nothing. -/
def Obligations.RegAddResult : Prop :=
  (∀ a b c : Byte,
      decode (packWord 0x11 a b c) = if a = 0 ∧ b = 0 ∧ c = 0 then .instr .regAdd else .reservedField)
    ∧ ∀ s : State,
      let d : Byte := s.session.initId + BitVec.ofNat 8 ((s.registry.length + 1) * 4)
      (s.role = .coord ∧ s.status.coordState ≠ .idle →
          exec .regAdd s = .next { s with cmdStatus := ⟨0x11, false, .busy, 0⟩ })
        ∧ (¬(s.role = .coord ∧ s.status.coordState ≠ .idle) →
          s.params.cap ≤ s.registry.length ∨ (∃ p ∈ s.registry, p.addr = s.args.xA) →
            exec .regAdd s = .next { s with cmdStatus := ⟨0x11, false, .none, 0⟩ })
        ∧ (¬(s.role = .coord ∧ s.status.coordState ≠ .idle) →
          s.registry.length < s.params.cap → (∀ p ∈ s.registry, p.addr ≠ s.args.xA) →
            exec .regAdd s = .next
              { s with
                registry := s.registry ++ [{ addr := s.args.xA, id := d, dist := 0x00000000 }]
                cmdStatus := ⟨0x11, true, .none, d⟩ })

/-- REG_REMOVE: the least slot with the id goes, and the later entries move down by one. -/
def Obligations.RegRemoveResult : Prop :=
  ∀ id b c : Byte,
    decode (packWord 0x12 id b c) = (if b = 0 ∧ c = 0 then .instr (.regRemove id) else .reservedField)
      ∧ ∀ s : State,
        (s.role = .coord ∧ s.status.coordState ≠ .idle →
            exec (.regRemove id) s = .next { s with cmdStatus := ⟨0x12, false, .busy, 0⟩ })
          ∧ (¬(s.role = .coord ∧ s.status.coordState ≠ .idle) → (∀ p ∈ s.registry, p.id ≠ id) →
            exec (.regRemove id) s = .next { s with cmdStatus := ⟨0x12, false, .none, 0⟩ })
          ∧ ∀ (k : Nat) (p : Peer), ¬(s.role = .coord ∧ s.status.coordState ≠ .idle) →
            s.registry[k]? = some p → p.id = id → (∀ q ∈ s.registry.take k, q.id ≠ id) →
              exec (.regRemove id) s = .next
                { s with
                  registry := s.registry.take k ++ s.registry.drop (k + 1)
                  cmdStatus := ⟨0x12, true, .none, 0⟩ }

/-- REG_UPDATE_ID: the entry with the address gets the new id. -/
def Obligations.RegUpdateIdResult : Prop :=
  ∀ id b c : Byte,
    decode (packWord 0x13 id b c) = (if b = 0 ∧ c = 0 then .instr (.regUpdateId id) else .reservedField)
      ∧ ∀ s : State,
        (s.role = .coord ∧ s.status.coordState ≠ .idle →
            exec (.regUpdateId id) s = .next { s with cmdStatus := ⟨0x13, false, .busy, 0⟩ })
          ∧ (¬(s.role = .coord ∧ s.status.coordState ≠ .idle) → (∀ p ∈ s.registry, p.addr ≠ s.args.xA) →
            exec (.regUpdateId id) s = .next { s with cmdStatus := ⟨0x13, false, .none, 0⟩ })
          ∧ ∀ (k : Nat) (p : Peer), ¬(s.role = .coord ∧ s.status.coordState ≠ .idle) →
            s.registry[k]? = some p → p.addr = s.args.xA → (∀ q ∈ s.registry.take k, q.addr ≠ s.args.xA) →
              exec (.regUpdateId id) s = .next
                { s with
                  registry := s.registry.set k { p with id := id }
                  cmdStatus := ⟨0x13, true, .none, 0⟩ }

/-- REG_SET_DIST: the least slot with the id gets the pattern of `ARG_F32`, unchanged. -/
def Obligations.RegSetDistResult : Prop :=
  ∀ id b c : Byte,
    decode (packWord 0x14 id b c) = (if b = 0 ∧ c = 0 then .instr (.regSetDist id) else .reservedField)
      ∧ ∀ s : State,
        (s.role = .coord ∧ s.status.coordState ≠ .idle →
            exec (.regSetDist id) s = .next { s with cmdStatus := ⟨0x14, false, .busy, 0⟩ })
          ∧ (¬(s.role = .coord ∧ s.status.coordState ≠ .idle) → (∀ p ∈ s.registry, p.id ≠ id) →
            exec (.regSetDist id) s = .next { s with cmdStatus := ⟨0x14, false, .none, 0⟩ })
          ∧ ∀ (k : Nat) (p : Peer), ¬(s.role = .coord ∧ s.status.coordState ≠ .idle) →
            s.registry[k]? = some p → p.id = id → (∀ q ∈ s.registry.take k, q.id ≠ id) →
              exec (.regSetDist id) s = .next
                { s with
                  registry := s.registry.set k { p with dist := s.args.f32 }
                  cmdStatus := ⟨0x14, true, .none, 0⟩ }

/-! ### The session and transmission commands -/

/-- SESSION_SET: BUSY, then BAD_OPERAND, then the whole session and a round reset. -/
def Obligations.SessionSetResult : Prop :=
  ∀ own init total : Byte,
    decode (packWord 0x20 own init total) = .instr (.sessionSet own init total)
      ∧ ∀ s : State,
        (s.role = .coord ∧ s.status.coordState ≠ .idle →
            exec (.sessionSet own init total) s = .next { s with cmdStatus := ⟨0x20, false, .busy, 0⟩ })
          ∧ (¬(s.role = .coord ∧ s.status.coordState ≠ .idle) → total = 0 ∨ s.params.maxNodes < total.toNat →
            exec (.sessionSet own init total) s = .next { s with cmdStatus := ⟨0x20, false, .badOperand, 0⟩ })
          ∧ (¬(s.role = .coord ∧ s.status.coordState ≠ .idle) → total ≠ 0 → total.toNat ≤ s.params.maxNodes →
            exec (.sessionSet own init total) s = .next
              { s with
                session :=
                  { ownId := own, initId := init, nodeCount := total
                    waitPos := BitVec.ofNat 8 ((own - init).toNat / 4)
                    targets :=
                      ((if own = init then [] else [init])
                        ++ ((List.range (total.toNat - 1)).map fun k => init + BitVec.ofNat 8 (4 * (k + 1))).filter
                          (· ≠ own)).take s.params.cap }
                round :=
                  { pos := 0, rt := List.replicate s.params.cap 0, rd1 := List.replicate s.params.cap 0
                    rd2 := List.replicate s.params.cap 0 }
                status := { s.status with respPhase := .poll }
                cmdStatus := ⟨0x20, true, .none, 0⟩ })

/-- SEND_CONFIG: WRONG_ROLE, then BUSY, then BAD_OPERAND; else the slot's id, the frame, its transmission and the
coordinator's own session. -/
def Obligations.SendConfigResult : Prop :=
  ∀ slot b c : Byte,
    decode (packWord 0x21 slot b c) = (if b = 0 ∧ c = 0 then .instr (.sendConfig slot) else .reservedField)
      ∧ ∀ s : State,
        (s.role ≠ .coord →
            exec (.sendConfig slot) s = .next { s with cmdStatus := ⟨0x21, false, .wrongRole, 0⟩ })
          ∧ (s.role = .coord → s.status.coordState ≠ .idle ∨ s.status.txPending = true →
            exec (.sendConfig slot) s = .next { s with cmdStatus := ⟨0x21, false, .busy, 0⟩ })
          ∧ (s.role = .coord → s.status.coordState = .idle → s.status.txPending = false →
            s.registry.length ≤ slot.toNat →
              exec (.sendConfig slot) s = .next { s with cmdStatus := ⟨0x21, false, .badOperand, 0⟩ })
          ∧ ∀ p : Peer, s.role = .coord → s.status.coordState = .idle → s.status.txPending = false →
            s.registry[slot.toNat]? = some p →
              let d : Byte := s.session.initId + BitVec.ofNat 8 ((slot.toNat + 1) * 4)
              let n : Byte := BitVec.ofNat 8 (s.registry.length + 1)
              let f : List Byte :=
                [0x41, 0xCC, s.seq, 0xCA, 0xDE] ++ le8 p.addr ++ le8 s.eui
                  ++ [0x03, s.session.initId, d, n, 0x00, 0x00]
              ∃ t, exec (.sendConfig slot) s = .next t
                ∧ t = { s with
                        registry := s.registry.set slot.toNat { p with id := d }
                        mem := t.mem
                        clen := 27
                        out := s.out ++ [.tx f .imm false 0]
                        status := { s.status with txPending := true, txKind := .config, respPhase := .poll }
                        session :=
                          { s.session with
                            nodeCount := n
                            waitPos := BitVec.ofNat 8 ((s.session.ownId - s.session.initId).toNat / 4)
                            targets :=
                              ((if s.session.ownId = s.session.initId then [] else [s.session.initId])
                                ++ ((List.range (n.toNat - 1)).map fun k =>
                                    s.session.initId + BitVec.ofNat 8 (4 * (k + 1))).filter
                                  (· ≠ s.session.ownId)).take s.params.cap }
                        round :=
                          { pos := 0, rt := List.replicate s.params.cap 0, rd1 := List.replicate s.params.cap 0
                            rd2 := List.replicate s.params.cap 0 }
                        cmdStatus := ⟨0x21, true, .none, d⟩ }
                ∧ HoldsFrame f s t

/-- TX_SEND: WRONG_ROLE, BUSY, BAD_OPERAND in that order; else one transmission of `CBUF[0..CLEN)` as its flags say. A word
with a reserved bit decodes to no command. -/
def Obligations.TxSendResult : Prop :=
  ∀ flags b c : Byte,
    decode (packWord 0x22 flags b c)
        = (if flags &&& 0xFC = 0 ∧ b = 0 ∧ c = 0 then .instr (.txSend flags) else .reservedField)
      ∧ ∀ s : State,
        (flags &&& 0xFC = 0 → s.role ≠ .none →
            exec (.txSend flags) s = .next { s with cmdStatus := ⟨0x22, false, .wrongRole, 0⟩ })
          ∧ (flags &&& 0xFC = 0 → s.role = .none → s.status.txPending = true →
            exec (.txSend flags) s = .next { s with cmdStatus := ⟨0x22, false, .busy, 0⟩ })
          ∧ (flags &&& 0xFC = 0 → s.role = .none → s.status.txPending = false → s.clen = 0 →
            exec (.txSend flags) s = .next { s with cmdStatus := ⟨0x22, false, .badOperand, 0⟩ })
          ∧ (flags &&& 0xFC = 0 → s.role = .none → s.status.txPending = false → s.clen ≠ 0 →
            exec (.txSend flags) s = .next
              { s with
                out := s.out ++
                  [.tx ((List.range s.clen.toNat).map fun k => s.mem.read (0x180 + k))
                    (if flags.getLsbD 0 then .dly s.args.time else .imm) (flags.getLsbD 1)
                    (if flags.getLsbD 1 then s.timing.rxTimeout else 0)]
                status := { s.status with txPending := true, txKind := .host }
                cmdStatus := ⟨0x22, true, .none, 0⟩ })

/-- RX_ENABLE: WRONG_ROLE, then BUSY; else one receive request, with `RX_TIMEOUT` or without timeout. -/
def Obligations.RxEnableResult : Prop :=
  ∀ flags b c : Byte,
    decode (packWord 0x23 flags b c)
        = (if flags &&& 0xFE = 0 ∧ b = 0 ∧ c = 0 then .instr (.rxEnable flags) else .reservedField)
      ∧ ∀ s : State,
        (flags &&& 0xFE = 0 → s.role ≠ .none →
            exec (.rxEnable flags) s = .next { s with cmdStatus := ⟨0x23, false, .wrongRole, 0⟩ })
          ∧ (flags &&& 0xFE = 0 → s.role = .none → s.status.txPending = true →
            exec (.rxEnable flags) s = .next { s with cmdStatus := ⟨0x23, false, .busy, 0⟩ })
          ∧ (flags &&& 0xFE = 0 → s.role = .none → s.status.txPending = false →
            exec (.rxEnable flags) s = .next
              { s with
                out := s.out ++ [.rxon (if flags.getLsbD 0 then s.timing.rxTimeout else 0)]
                cmdStatus := ⟨0x23, true, .none, 0⟩ })

/-! ### The host interface -/

/-- A command that is refused, by whatever name, changes nothing but `CMD_STATUS`; the interrupt output stays. -/
def Obligations.RefusalChangesOnlyCmdStatus : Prop :=
  ∀ (w : Word) (s t : State), act (.host (.write 4 0x00C w)) s = .next t → t.cmdStatus.err ≠ .none →
    t = { s with cmdStatus := ⟨w.extractLsb' 0 8, false, t.cmdStatus.err, 0⟩ } ∧ irq t = irq s

/-- After a write to `CMD`, `CMD_STATUS` names the word's opcode; only REG_CONTAINS, REG_ADD and SEND_CONFIG leave an id, and
no command touches the registers the host alone writes, the latched timestamps or the abort record. -/
def Obligations.CommandOutcomeAndFrame : Prop :=
  ∀ (w : Word) (s t : State), act (.host (.write 4 0x00C w)) s = .next t →
    t.cmdStatus.opc = w.extractLsb' 0 8
      ∧ (t.cmdStatus.resId ≠ 0 → t.cmdStatus.opc = 0x10 ∨ t.cmdStatus.opc = 0x11 ∨ t.cmdStatus.opc = 0x21)
      ∧ t.params = s.params ∧ t.enable = s.enable ∧ t.role = s.role ∧ t.irqEn = s.irqEn ∧ t.args = s.args
      ∧ t.eui = s.eui ∧ t.seq = s.seq ∧ t.timing = s.timing ∧ t.distLimit = s.distLimit
      ∧ t.lastAbort = s.lastAbort ∧ t.stamps = s.stamps ∧ t.inlen = s.inlen ∧ t.readData = s.readData
      ∧ (∀ a, (a < 0x180 ∨ 0x200 ≤ a) → t.mem.read a = s.mem.read a)

/-- An access of another size, an unaligned one, or one outside the block sets `ACCESS_ERR` and does nothing else; its read
gives 0, and a command word so written is not executed. A legal read changes nothing but the value it returns, and gives the
same value again. A bus access to one of the 4096 addresses from `BLOCK_BASE` is the host access at its offset; that one
to any other address is nothing to the block is the model's reading (log 10). -/
def Obligations.HostReadsAndIllegalAccesses : Prop :=
  (∀ (size off : Nat) (v : Word) (s : State), (size ≠ 4 ∨ off % 4 ≠ 0 ∨ 0x1000 ≤ off) →
      act (.host (.write size off v)) s = .next { s with status := { s.status with accessErr := true } }
        ∧ act (.host (.read size off)) s
          = .next { s with status := { s.status with accessErr := true }, readData := 0 })
    ∧ (∀ (off : Nat) (s : State), off % 4 = 0 → off < 0x1000 →
      ∃ v, act (.host (.read 4 off)) s = .next { s with readData := v }
        ∧ act (.host (.read 4 off)) { s with readData := v } = .next { s with readData := v })
    ∧ ∀ (size addr : Nat) (v : Word) (s : State),
      (∀ off < 0x1000, addr = s.params.blockBase + off →
          act (.bus (.write size addr v)) s = act (.host (.write size off v)) s
            ∧ act (.bus (.read size addr)) s = act (.host (.read size off)) s)
        ∧ (addr < s.params.blockBase ∨ s.params.blockBase + 0x1000 ≤ addr →
          act (.bus (.write size addr v)) s = .next s ∧ act (.bus (.read size addr)) s = .next s)

/-- The register map: what a legal read of each register and of each window word gives, field by field; and the getters the
decoded-field registers show, as bytes of `CBUF`, for every pair of addressing modes. -/
def Obligations.LegalReadReturnsTheRegister : Prop :=
  -- the getters
  (∀ m : Memory,
    let c := fun k => m.read (0x180 + k)
    let d := (c 1).extractLsb' 2 2
    let e := (c 1).extractLsb' 6 2
    let len := fun v : BitVec 2 => if v = 2 then 2 else if v = 3 then 8 else 0
    let hl := 5 + len d + len e
    addrModeBits (dstMode m) = d ∧ addrModeBits (srcMode m) = e ∧ headerLen m = hl ∧ fcode m = c hl ∧ frameSeq m = c 2
      ∧ (∀ k < 2, (dstShort m).extractLsb' (8 * k) 8 = if d = 2 then c (5 + k) else 0)
      ∧ (∀ k < 2, (srcShort m).extractLsb' (8 * k) 8 = if e = 2 then c (5 + len d + k) else 0)
      ∧ (∀ k < 8, (dstExt m).extractLsb' (8 * k) 8 = if d = 3 then c (5 + k) else 0)
      ∧ (∀ k < 8, (srcExt m).extractLsb' (8 * k) 8 = if e = 3 then c (5 + len d + k) else 0)
      ∧ (∀ k < 4, (frameTs m).extractLsb' (8 * k) 8 = c (hl + 1 + k))
      ∧ srcId m = (srcShort m).extractLsb' 0 8 ∧ dstId m = (dstShort m).extractLsb' 0 8)
  ∧ ∀ s : State, s.Inv →
    let f := fun (off lo n : Nat) => (readAt off s).extractLsb' lo n
    -- CTRL, STATUS, IRQ_EN, CMD
    (f 0x000 0 1 = bit s.enable ∧ f 0x000 1 2 = roleBits s.role ∧ f 0x000 3 29 = 0)
      ∧ (f 0x004 0 1 = bit s.status.msgPending ∧ f 0x004 1 1 = bit s.status.errPending
        ∧ f 0x004 2 1 = bit s.status.txPending ∧ f 0x004 3 1 = bit s.status.roundDone
        ∧ f 0x004 4 1 = bit s.status.roundFail ∧ f 0x004 5 1 = bit s.status.discReq
        ∧ f 0x004 6 1 = bit s.status.overrun ∧ f 0x004 7 1 = bit s.status.accessErr
        ∧ f 0x004 8 1 = errCauseBit s.status.errCause ∧ f 0x004 9 1 = bit s.status.backoff
        ∧ f 0x004 10 2 = coordStateBits s.status.coordState ∧ f 0x004 12 1 = respPhaseBit s.status.respPhase
        ∧ f 0x004 13 3 = txKindBits s.status.txKind ∧ f 0x004 16 16 = 0)
      ∧ (f 0x008 0 8 = s.irqEn ∧ f 0x008 8 24 = 0) ∧ readAt 0x00C s = 0
    -- CMD_STATUS, the arguments, CFG_OUT, EUI
      ∧ (f 0x010 0 8 = s.cmdStatus.opc ∧ f 0x010 8 1 = bit s.cmdStatus.ok ∧ f 0x010 9 3 = 0
        ∧ f 0x010 12 4 = errCodeBits s.cmdStatus.err ∧ f 0x010 16 8 = s.cmdStatus.resId ∧ f 0x010 24 8 = 0)
      ∧ readAt 0x014 s = s.args.ts ∧ readAt 0x018 s = s.args.f32
      ∧ (readAt 0x01C s = s.args.time.extractLsb' 0 32 ∧ f 0x020 0 8 = s.args.time.extractLsb' 32 8 ∧ f 0x020 8 24 = 0)
      ∧ (readAt 0x024 s = s.args.xA.extractLsb' 0 32 ∧ readAt 0x028 s = s.args.xA.extractLsb' 32 32)
      ∧ (readAt 0x02C s = s.args.xB.extractLsb' 0 32 ∧ readAt 0x030 s = s.args.xB.extractLsb' 32 32)
      ∧ (f 0x034 0 8 = s.cfgOut.init ∧ f 0x034 8 8 = s.cfgOut.assigned ∧ f 0x034 16 8 = s.cfgOut.total ∧ f 0x034 24 8 = 0)
      ∧ (readAt 0x038 s = s.eui.extractLsb' 0 32 ∧ readAt 0x03C s = s.eui.extractLsb' 32 32)
    -- SESSION, ROUND, SEQ, REG_COUNT, the timing registers, DIST_LIMIT, LAST_ABORT
      ∧ (f 0x040 0 8 = s.session.ownId ∧ f 0x040 8 8 = s.session.initId ∧ f 0x040 16 8 = s.session.nodeCount
        ∧ f 0x040 24 8 = s.session.waitPos)
      ∧ (f 0x044 0 8 = s.round.pos ∧ (f 0x044 8 8).toNat = s.session.targets.length ∧ f 0x044 16 16 = 0)
      ∧ (f 0x048 0 8 = s.seq ∧ f 0x048 8 24 = 0) ∧ (readAt 0x04C s).toNat = s.registry.length
      ∧ readAt 0x050 s = s.timing.turnaround ∧ readAt 0x054 s = s.timing.replyDelay
      ∧ readAt 0x058 s = s.timing.rxTimeout ∧ readAt 0x05C s = s.timing.backoffCyc
      ∧ readAt 0x060 s = s.timing.blinkDlyMin ∧ readAt 0x064 s = s.timing.blinkDlyMax ∧ readAt 0x068 s = s.distLimit
      ∧ (f 0x06C 0 8 = abortCauseBits s.lastAbort.cause ∧ f 0x06C 8 8 = s.lastAbort.evictId
        ∧ f 0x06C 16 1 = bit s.lastAbort.evictV ∧ f 0x06C 17 15 = 0)
    -- the 40-bit timestamps, INLEN, CLEN
      ∧ (∀ p ∈ [(0x070, s.stamps.tx), (0x078, s.stamps.rx), (0x088, s.stamps.txPoll), (0x090, s.stamps.txRange),
          (0x098, s.stamps.lastRx), (0x0A0, s.stamps.phaseRx), (0x0A8, s.stamps.schedTx), (0x0B0, s.stamps.ackTx)],
          readAt p.1 s = p.2.extractLsb' 0 32 ∧ f (p.1 + 4) 0 8 = p.2.extractLsb' 32 8 ∧ f (p.1 + 4) 8 24 = 0)
      ∧ (f 0x080 0 16 = s.inlen ∧ f 0x080 16 16 = 0) ∧ (f 0x084 0 8 = s.clen ∧ f 0x084 8 24 = 0)
    -- the decoded-field registers, functions of CBUF
      ∧ (f 0x0B8 0 2 = addrModeBits (dstMode s.mem) ∧ f 0x0B8 2 2 = addrModeBits (srcMode s.mem) ∧ f 0x0B8 4 4 = 0
        ∧ (f 0x0B8 8 8).toNat = headerLen s.mem ∧ f 0x0B8 16 8 = fcode s.mem ∧ f 0x0B8 24 8 = frameSeq s.mem)
      ∧ (f 0x0BC 0 16 = dstShort s.mem ∧ f 0x0BC 16 16 = srcShort s.mem)
      ∧ (readAt 0x0C0 s = (dstExt s.mem).extractLsb' 0 32 ∧ readAt 0x0C4 s = (dstExt s.mem).extractLsb' 32 32)
      ∧ (readAt 0x0C8 s = (srcExt s.mem).extractLsb' 0 32 ∧ readAt 0x0CC s = (srcExt s.mem).extractLsb' 32 32)
      ∧ readAt 0x0D0 s = frameTs s.mem
    -- the windows, byte k of word 4·j being byte 4·j + k
      ∧ (∀ j < 32, ∀ k < 4, f (0x100 + 4 * j) (8 * k) 8 = s.mem.read (0x100 + 4 * j + k))
      ∧ (∀ j < 32, ∀ k < 4, f (0x180 + 4 * j) (8 * k) 8 = s.mem.read (0x180 + 4 * j + k))
      ∧ (∀ j < 16, ∀ k < 4, f (0x200 + 4 * j) (8 * k) 8 = s.session.targets.getD (4 * j + k) 0)
      ∧ (∀ (i : Nat) (p : Peer), s.registry[i]? = some p →
        readAt (0x400 + 16 * i) s = p.addr.extractLsb' 0 32 ∧ readAt (0x404 + 16 * i) s = p.addr.extractLsb' 32 32
          ∧ f (0x408 + 16 * i) 0 8 = p.id ∧ f (0x408 + 16 * i) 8 24 = 0 ∧ readAt (0x40C + 16 * i) s = p.dist)
      ∧ (∀ i < 64, s.registry.length ≤ i → ∀ k < 4, readAt (0x400 + 16 * i + 4 * k) s = 0)
      ∧ (∀ i < s.params.cap,
        readAt (0x800 + 16 * i) s = (s.round.rt.getD i 0).extractLsb' 0 32
          ∧ f (0x804 + 16 * i) 0 8 = (s.round.rt.getD i 0).extractLsb' 32 8 ∧ f (0x804 + 16 * i) 8 24 = 0
          ∧ readAt (0x808 + 16 * i) s = s.round.rd1.getD i 0 ∧ readAt (0x80C + 16 * i) s = s.round.rd2.getD i 0)

/-- A reserved offset and a window word beyond CAP read 0; a legal write to a reserved offset, to a read-only register or to a
read-only window has no effect. -/
def Obligations.ReservedAndReadOnlyIgnoreWrites : Prop :=
  (∀ (off : Nat) (v : Word) (s : State), off % 4 = 0 →
      (0x0D4 ≤ off ∧ off ≤ 0x0FC) ∨ (0x240 ≤ off ∧ off ≤ 0x3FC) ∨ (0xC00 ≤ off ∧ off ≤ 0xFFC) →
        readAt off s = 0 ∧ act (.host (.write 4 off v)) s = .next s)
    ∧ (∀ (s : State) (i : Nat), s.Inv → s.params.cap ≤ i →
      (∀ j < 16, 4 * j = i → readAt (0x200 + i) s = 0)
        ∧ (i < 64 → ∀ k < 4, readAt (0x400 + 16 * i + 4 * k) s = 0 ∧ readAt (0x800 + 16 * i + 4 * k) s = 0))
    ∧ ∀ (off : Nat) (v : Word) (s : State), off % 4 = 0 →
      off ∈ [0x010, 0x034, 0x040, 0x044, 0x04C, 0x084] ∨ (0x06C ≤ off ∧ off ≤ 0x07C) ∨ (0x088 ≤ off ∧ off ≤ 0x0D0)
          ∨ (0x180 ≤ off ∧ off ≤ 0x23F) ∨ (0x400 ≤ off ∧ off ≤ 0xBFF) →
        act (.host (.write 4 off v)) s = .next s

/-- A read/write register reads back what was written, within the width of its field, and no other word of the block
changes. -/
def Obligations.WritableRegistersReadBack : Prop :=
  ∀ (off : Nat) (mask v : Word) (s : State),
    (off, mask) ∈ ([(0x008, 0x000000FB), (0x014, 0xFFFFFFFF), (0x018, 0xFFFFFFFF), (0x01C, 0xFFFFFFFF),
        (0x020, 0x000000FF), (0x024, 0xFFFFFFFF), (0x028, 0xFFFFFFFF), (0x02C, 0xFFFFFFFF), (0x030, 0xFFFFFFFF),
        (0x038, 0xFFFFFFFF), (0x03C, 0xFFFFFFFF), (0x048, 0x000000FF), (0x050, 0xFFFFFFFF), (0x054, 0xFFFFFFFF),
        (0x058, 0xFFFFFFFF), (0x05C, 0xFFFFFFFF), (0x060, 0xFFFFFFFF), (0x064, 0xFFFFFFFF),
        (0x068, 0xFFFFFFFF)] : List (Nat × Word)) →
      ∃ t, act (.host (.write 4 off v)) s = .next t ∧ readAt off t = v &&& mask
        ∧ (∀ off', off' ≠ off → readAt off' t = readAt off' s) ∧ t.out = s.out

/-- A write to `STATUS` clears the W1C bits it writes 1 to and changes nothing else; the interrupt output is the OR of the
enabled event flags, bits 0, 1 and 3 to 7. -/
def Obligations.StatusClearAndInterrupt : Prop :=
  (∀ (v : Word) (s : State), ∃ t, act (.host (.write 4 0x004 v)) s = .next t
      ∧ t = { s with status := t.status } ∧ statusWord t.status = statusWord s.status &&& ~~~(v &&& 0x000000FB))
    ∧ ∀ s : State, irq s = true ↔
      ∃ b ∈ [0, 1, 3, 4, 5, 6, 7], (readAt 0x004 s).getLsbD b = true ∧ (readAt 0x008 s).getLsbD b = true

/-- `INBUF` and `INLEN` take a host write only in role NONE: the four bytes of the word, its low 16 bits. -/
def Obligations.MailboxWriteNeedsRoleNone : Prop :=
  ∀ (v : Word) (s : State),
    (s.role ≠ .none → act (.host (.write 4 0x080 v)) s = .next s
        ∧ ∀ j < 32, act (.host (.write 4 (0x100 + 4 * j) v)) s = .next s)
      ∧ (s.role = .none → act (.host (.write 4 0x080 v)) s = .next { s with inlen := v.extractLsb' 0 16 }
        ∧ ∀ j < 32, ∃ t, act (.host (.write 4 (0x100 + 4 * j) v)) s = .next t ∧ t = { s with mem := t.mem }
          ∧ (∀ k < 4, t.mem.read (0x100 + 4 * j + k) = v.extractLsb' (8 * k) 8)
          ∧ ∀ a, (a < 0x100 + 4 * j ∨ 0x100 + 4 * j + 4 ≤ a) → t.mem.read a = s.mem.read a)

/-- A write to `CTRL`: a role of 3 is stored as NONE; one that changes neither field does nothing; one that changes a field
aborts a round in progress, resets the round and the state machines, and turns on the receiver of a responder. The abort
record's id 0 is R266's (log 18). -/
def Obligations.CtrlWriteRestartsTheStateMachines : Prop :=
  ∀ (v : Word) (s : State),
    let e : Bool := v.getLsbD 0
    let r : Role := if v.extractLsb' 1 2 = 1 then .coord else if v.extractLsb' 1 2 = 2 then .resp else .none
    let inRound : Bool := decide
      ((s.role = .coord ∧ (s.status.coordState = .awaitAcks ∨ s.status.coordState = .awaitFinals))
        ∨ (s.role = .resp ∧ (s.status.respPhase = .range ∨ 0 < s.round.pos.toNat)))
    (e = s.enable ∧ r = s.role → act (.host (.write 4 0x000 v)) s = .next s)
      ∧ (¬(e = s.enable ∧ r = s.role) →
        act (.host (.write 4 0x000 v)) s = .next
          { s with
            enable := e
            role := r
            round :=
              { pos := 0, rt := List.replicate s.params.cap 0, rd1 := List.replicate s.params.cap 0
                rd2 := List.replicate s.params.cap 0 }
            status :=
              { s.status with
                coordState := .idle, respPhase := .poll, backoff := false
                roundFail := s.status.roundFail || inRound }
            lastAbort := if inRound then { cause := .disabled, evictId := 0, evictV := false } else s.lastAbort
            out := if e ∧ r = .resp then s.out ++ [.rxon 0] else s.out })

/-- After the block reset every register reads 0 but NODE_COUNT (1), DIST_LIMIT (1000) and the header length 5 that the
getters give an empty `CBUF`; `OUT` is empty, `IRQ` is low, and neither the sequencer nor the backoff timer has a step. The radio,
which is not reset, keeps what it was asked for (log 16). The value of `DEC_INFO` and that the model's own fields stay are the
model's reading and choice (log 12, log 7). -/
def Obligations.BlockResetLeaves : Prop :=
  ∀ s : State, ∃ t, act .blockReset s = .next t
    ∧ (∀ off < 0x1000, off % 4 = 0 →
      readAt off t = if off = 0x040 then 0x00010000 else if off = 0x068 then 1000 else if off = 0x0B8 then 0x00000500 else 0)
    ∧ t.out = [] ∧ irq t = false ∧ Quiescent t ∧ t.params = s.params ∧ t.schedule = s.schedule
    ∧ t = { State.resetOf s.params with
            outBefore := s.outBefore ++ s.out, readData := s.readData, schedule := s.schedule, envTick := s.envTick
            draws := s.draws }

/-! ### The coordinator -/

/-- IDLE with nothing pending and no backoff: the round starts with a broadcast POLL that carries the coordinator's id. -/
def Obligations.CoordinatorStartsARound : Prop :=
  ∀ s : State, s.enable = true → s.role = .coord → s.status.coordState = .idle → s.status.backoff = false →
    s.status.txPending = false → s.status.msgPending = false → s.status.errPending = false → s.round.pos = 0 →
      let f : List Byte := [0x41, 0x88, s.seq, 0xCA, 0xDE, 0xFF, 0xFF, s.session.ownId, 0x00, 0x04, 0x00, 0x00]
      ∃ t, act .sequencer s = .next t
        ∧ t = { s with
                mem := t.mem
                clen := 12
                round :=
                  { pos := 0, rt := List.replicate s.params.cap 0, rd1 := List.replicate s.params.cap 0
                    rd2 := List.replicate s.params.cap 0 }
                status :=
                  { s.status with coordState := .awaitAcks, respPhase := .poll, txPending := true, txKind := .poll }
                out := s.out ++ [.tx f .imm true s.timing.rxTimeout] }
        ∧ HoldsFrame f s t

/-- IDLE drains the mailbox: a well-formed blink with an extended source is registered unless known or the registry is full,
every other frame is dropped, and a pending error is cleared. -/
def Obligations.IdleDrainsTheMailbox : Prop :=
  (∀ s : State, CoordTakes .idle s →
      let u := take s
      let blink := TakesWellFormed s ∧ fcode u.mem = 0x01 ∧ srcMode u.mem = .extended
      let known := s.params.cap ≤ s.registry.length ∨ ∃ p ∈ s.registry, p.addr = srcExt u.mem
      (¬ blink ∨ known → act .sequencer s = .next u)
        ∧ (blink → ¬ known →
          act .sequencer s = .next
            { u with
              registry := s.registry ++
                [{ addr := srcExt u.mem, id := s.session.initId + BitVec.ofNat 8 ((s.registry.length + 1) * 4), dist := 0 }] }))
    ∧ ∀ s : State, s.enable = true → s.role = .coord → s.status.coordState = .idle → s.status.txPending = false →
      s.status.msgPending = false → s.status.errPending = true →
        act .sequencer s = .next { s with status := { s.status with errPending := false } }

/-- When the sequencer has a step: never while disabled or in role NONE; a coordinator in COMPLETE always, and then it only
returns to IDLE; else not while a transmission is outstanding (it consumes neither a message nor an error), and only with a
message or an error pending, or from IDLE at position 0 without backoff. Where it has none it changes nothing. -/
def Obligations.HoldWhileTransmitting : Prop :=
  ∀ s : State,
    let pending := s.status.msgPending = true ∨ s.status.errPending = true
    let steps :=
      s.enable = true
        ∧ ((s.role = .coord ∧ s.status.coordState = .complete)
          ∨ (s.role = .coord ∧ s.status.txPending = false
            ∧ (pending ∨ (s.status.coordState = .idle ∧ s.status.backoff = false ∧ s.round.pos = 0)))
          ∨ (s.role = .resp ∧ s.status.txPending = false ∧ pending))
    (sequencerStep s ≠ none ↔ steps)
      ∧ (¬ steps → act .sequencer s = .next s)
      ∧ (s.enable = true → s.role = .coord → s.status.coordState = .complete →
        act .sequencer s = .next { s with status := { s.status with coordState := .idle } })

/-- When a frame is well formed; what `take()` does; and the frames a coordinator that awaits an answer discards: oversized, not
well formed, or a blink without an extended source. The receive window is armed again and nothing else changes. That a mode none is
well formed is R137's (log 19). -/
def Obligations.AwaitDiscardsAFrame : Prop :=
  (∀ (m : Memory) (n : Byte),
      wellFormed m n = true ↔
        dstMode m ≠ .reserved ∧ srcMode m ≠ .reserved ∧ headerLen m + 1 ≤ n.toNat
          ∧ (fcode m = 0x05 ∨ fcode m = 0x07 → headerLen m + 1 + 4 ≤ n.toNat))
    ∧ (∀ s : State,
      (127 < s.inlen.toNat → take s = { s with status := { s.status with msgPending := false } })
        ∧ (s.inlen.toNat ≤ 127 →
          take s = { s with mem := (take s).mem, clen := (take s).clen
                            status := { s.status with msgPending := false } }
            ∧ HoldsFrame (mailboxFrame s) s (take s)))
    ∧ ∀ s : State, AwaitTakes s →
      ¬ TakesWellFormed s ∨ (fcode (take s).mem = 0x01 ∧ srcMode (take s).mem ≠ .extended) →
        act .sequencer s = .next { take s with out := s.out ++ [.rxon s.timing.rxTimeout] }

/-- The three aborts of a coordinator that awaits an answer of code `x`: a blink (registered unless known or the registry is
full), another code, the right code from another source than the target whose turn it is. The
abort record's id 0 is R266's (log 18). -/
def Obligations.AwaitAbortsTheRound : Prop :=
  ∀ s : State, AwaitTakes s → TakesWellFormed s →
    let u := take s
    let x : Byte := if s.status.coordState = .awaitAcks then 0x05 else 0x07
    let known := s.params.cap ≤ s.registry.length ∨ ∃ p ∈ s.registry, p.addr = srcExt u.mem
    (fcode u.mem = 0x01 → srcMode u.mem = .extended →
        act .sequencer s = .next (coordAborted .blinkReceived
          { u with
            registry :=
              if known then s.registry
              else s.registry ++
                [{ addr := srcExt u.mem, id := s.session.initId + BitVec.ofNat 8 ((s.registry.length + 1) * 4), dist := 0 }] }))
      ∧ (fcode u.mem ≠ 0x01 → fcode u.mem ≠ x → act .sequencer s = .next (coordAborted .unexpectedCode u))
      ∧ (fcode u.mem = x → s.session.targets[s.round.pos.toNat]? ≠ some (srcId u.mem) →
        act .sequencer s = .next (coordAborted .sourceMismatch u))

/-- An ACK of the target whose turn it is: the first round trip and the embedded delay are recorded; after the last one the
RANGE is scheduled `TURNAROUND` after the last reception. -/
def Obligations.AckIsRecorded : Prop :=
  ∀ s : State, CoordTakes .awaitAcks s → TakesWellFormed s → fcode (take s).mem = 0x05 →
    s.session.targets[s.round.pos.toNat]? = some (srcId (take s).mem) →
      let u := take s
      let i := s.round.pos.toNat
      let rt := s.round.rt.set i (s.stamps.rx - s.stamps.txPoll)
      let rd1 := s.round.rd1.set i (frameTs u.mem)
      ((s.round.pos + 1).toNat + 1 ≠ s.session.nodeCount.toNat →
          act .sequencer s = .next
            { u with
              round := { s.round with rt := rt, rd1 := rd1, pos := s.round.pos + 1 }
              stamps := { s.stamps with lastRx := s.stamps.rx }
              out := s.out ++ [.rxon s.timing.rxTimeout] })
        ∧ ((s.round.pos + 1).toNat + 1 = s.session.nodeCount.toNat →
          let f : List Byte := [0x41, 0x88, s.seq, 0xCA, 0xDE, 0xFF, 0xFF, s.session.ownId, 0x00, 0x06, 0x00, 0x00]
          ∃ t, act .sequencer s = .next t
            ∧ t = { u with
                    mem := t.mem
                    clen := 12
                    round := { s.round with rt := rt, rd1 := rd1, pos := 0 }
                    stamps := { s.stamps with lastRx := s.stamps.rx }
                    status := { u.status with coordState := .awaitFinals, txPending := true, txKind := .range }
                    out := s.out ++
                      [.tx f (.dly (s.stamps.rx + s.timing.turnaround.zeroExtend 40)) true s.timing.rxTimeout] }
            ∧ HoldsFrame f s t)

/-- A FINAL of the target whose turn it is: the embedded value is recorded; after the last one the round commits if every
target is valid and aborts with no registry change if one is not. On a commit the registry keeps its addresses, ids and
length, and the entry a target's id finds holds that target's rounded distance. -/
def Obligations.FinalIsRecordedAndTheRoundCommits : Prop :=
  ∀ s : State, CoordTakes .awaitFinals s → TakesWellFormed s → fcode (take s).mem = 0x07 →
    s.session.targets[s.round.pos.toNat]? = some (srcId (take s).mem) →
      let u := take s
      let r : State :=
        { u with
          round := { s.round with rd2 := s.round.rd2.set s.round.pos.toNat (frameTs u.mem), pos := s.round.pos + 1 }
          stamps := { s.stamps with lastRx := s.stamps.rx } }
      let last := (s.round.pos + 1).toNat + 1 = s.session.nodeCount.toNat
      let valid := ∀ i < s.session.nodeCount.toNat - 1, targetValid r i = true
      (¬ last → act .sequencer s = .next { r with out := s.out ++ [.rxon s.timing.rxTimeout] })
        ∧ (last → ¬ valid → act .sequencer s = .next (coordAborted .implausibleDistance r))
        ∧ (last → valid → ∃ t, act .sequencer s = .next t
          ∧ t = { r with
                  registry := t.registry
                  round := { r.round with pos := 0 }
                  status := { u.status with roundDone := true, coordState := .complete } }
          ∧ t.registry.map (fun p => (p.addr, p.id)) = s.registry.map (fun p => (p.addr, p.id))
          ∧ (∀ i < s.session.nodeCount.toNat - 1, ∀ k, findId (targetAt s i) s = some k →
            (∀ j < s.session.nodeCount.toNat - 1, targetAt s j = targetAt s i → j = i) →
              ∃ p, t.registry[k]? = some p ∧ p.dist = targetDist r i)
          ∧ ∀ (k : Nat) (p : Peer), s.registry[k]? = some p →
            (∀ i < s.session.nodeCount.toNat - 1, findId (targetAt s i) s ≠ some k) → t.registry[k]? = some p)

/-- A timeout or receive error while awaiting: the peer whose turn it is, unless it is the initiator, is evicted from the
registry, the round aborts and the backoff begins. The abort record's id 0 where none is evicted is R266's (log 18). -/
def Obligations.TimeoutEvictsThePeer : Prop :=
  ∀ s : State, s.enable = true → s.role = .coord →
    s.status.coordState = .awaitAcks ∨ s.status.coordState = .awaitFinals →
      s.status.txPending = false → s.status.msgPending = false → s.status.errPending = true →
        let cause : AbortCause := if s.status.errCause = .rxTimeout then .rxTimeout else .rxError
        let back := fun v : State => { v with status := { v.status with errPending := false, backoff := true } }
        (∀ p, s.session.targets[s.round.pos.toNat]? = some p → p ≠ s.session.initId →
            act .sequencer s = .next
              { back (coordAborted cause s) with
                registry :=
                  match findId p s with
                  | some k => s.registry.eraseIdx k
                  | none => s.registry
                lastAbort := { cause := cause, evictId := p, evictV := true }
                status := { (back (coordAborted cause s)).status with discReq := true } })
          ∧ ((∀ p, s.session.targets[s.round.pos.toNat]? = some p → p = s.session.initId) →
            act .sequencer s = .next (back (coordAborted cause s)))

/-- The only transitions of `COORD_STATE`, over every action in every state. -/
def Obligations.CoordStateTransitions : Prop :=
  ∀ (a : Action) (s t : State), act a s = .next t → t.status.coordState ≠ s.status.coordState →
    (a = .sequencer
        ∧ ((s.status.coordState = .idle ∧ t.status.coordState = .awaitAcks)
          ∨ (s.status.coordState = .awaitAcks ∧ t.status.coordState = .awaitFinals)
          ∨ (s.status.coordState = .awaitFinals ∧ t.status.coordState = .complete)
          ∨ (s.status.coordState = .complete ∧ t.status.coordState = .idle)
          ∨ ((s.status.coordState = .awaitAcks ∨ s.status.coordState = .awaitFinals) ∧ t.status.coordState = .idle
            ∧ t.status.roundFail = true)))
      ∨ (t.status.coordState = .idle
        ∧ (a = .blockReset ∨ (∃ v, a = .host (.write 4 0x000 v))
          ∨ ∃ v, a = .bus (.write 4 s.params.blockBase v)))

/-! ### The responder -/

/-- A POLL or RANGE from a node that is not the initiator, or while there is none: a phase in progress is dropped with the
initiator, and a discovery blink goes out after a delay in the jitter window. The delay is a free draw: the statement holds
for whatever `Config.blinkDraw` is, and says nothing of the model's own counter of draws (log 3). -/
def Obligations.StrangerGetsABlink : Prop :=
  ∀ s : State, RespTakes s → TakesWellFormed s → fcode (take s).mem = 0x04 ∨ fcode (take s).mem = 0x06 →
    s.session.initId = 0 ∨ srcId (take s).mem ≠ s.session.initId →
      let u := take s
      let v : State :=
        if s.status.respPhase = .range ∨ 0 < s.round.pos.toNat then
          { respAborted .respMismatch u with session := { s.session with initId := 0 } }
        else u
      let f : List Byte :=
        [0x41, 0xCC, s.seq, 0xCA, 0xDE] ++ List.replicate 8 0x00 ++ le8 s.eui ++ [0x01, 0x00, 0x00]
      ∃ (t : State) (d : Word), act .sequencer s = .next t
        ∧ (if s.timing.blinkDlyMax.toNat ≤ s.timing.blinkDlyMin.toNat then d = s.timing.blinkDlyMin
          else s.timing.blinkDlyMin.toNat ≤ d.toNat ∧ d.toNat ≤ s.timing.blinkDlyMax.toNat)
        ∧ t = { v with
                mem := t.mem
                clen := 24
                draws := t.draws
                round :=
                  { pos := 0, rt := List.replicate s.params.cap 0, rd1 := List.replicate s.params.cap 0
                    rd2 := List.replicate s.params.cap 0 }
                status := { v.status with respPhase := .poll, txPending := true, txKind := .blink }
                out := s.out ++
                  [.tx (f.take (24 - s.params.blinkLenTrim)) (.dly (s.stamps.rx + d.zeroExtend 40)) true 0] }
        ∧ HoldsFrame f s t

/-- Replies that do not fit: outside a phase they are dropped; in a phase a wrong source aborts the round and clears the
initiator, a wrong code from the right source aborts the round and keeps it. A RANGE of the initiator that is not due resets
the phase. Each arms the receiver again, without timeout. That the source expected at position 0 is the initiator,
also where `TARGETS[0]` is another, is the model's reading of rules that disagree (log 13). -/
def Obligations.UnfittingFrameResetsThePhase : Prop :=
  ∀ s : State, RespTakes s → TakesWellFormed s →
    let u := take s
    let active := s.status.respPhase = .range ∨ 0 < s.round.pos.toNat
    let on := fun v : State => { v with out := s.out ++ [.rxon 0] }
    let x : Byte :=
      if s.status.respPhase = .poll then (if s.round.pos = 0 then 0x04 else 0x05)
      else if s.round.pos = 0 then 0x06 else 0x07
    let expected := if s.round.pos = 0 then some s.session.initId else s.session.targets[s.round.pos.toNat]?
    let fits := expected = some (srcId u.mem)
    (fcode u.mem = 0x05 ∨ fcode u.mem = 0x07 →
        (¬ active → act .sequencer s = .next (on u))
          ∧ (active → ¬ fits →
            act .sequencer s
              = .next (on { respAborted .respMismatch u with session := { s.session with initId := 0 } }))
          ∧ (active → fits → fcode u.mem ≠ x → act .sequencer s = .next (on (respAborted .respUnexpectedCode u))))
      ∧ (fcode u.mem = 0x06 → s.session.initId ≠ 0 → srcId u.mem = s.session.initId → x ≠ 0x06 →
        (active → act .sequencer s = .next (on (respAborted .respUnexpectedCode u)))
          ∧ (¬ active → act .sequencer s = .next (on u)))

/-- An expected arrival: an ACK, FINAL or RANGE that is due, or a POLL of the initiator (which first aborts a phase in
progress). The first arrival of a phase is time-stamped; at the wait position the reply is scheduled `REPLY_DELAY` after this
arrival and embeds the delay since the phase start; after the last position the phase advances or the round completes. That
the initiator's POLL and RANGE arrive at position 0 whatever `TARGETS[0]` is, and that the responder replies for `NODE_COUNT` = 1 and
`WAIT_POS` = 1, as R240 says against R249, is the model's reading of rules that disagree (log 13). -/
def Obligations.ArrivalRepliesAndAdvances : Prop :=
  ∀ s : State, RespTakes s → TakesWellFormed s →
    let u := take s
    let active := s.status.respPhase = .range ∨ 0 < s.round.pos.toNat
    let fits := s.session.targets[s.round.pos.toNat]? = some (srcId u.mem)
    let fromInit := s.session.initId ≠ 0 ∧ srcId u.mem = s.session.initId
    let poll := fcode u.mem = 0x04 ∧ fromInit
    let due :=
      (fcode u.mem = 0x06 ∧ fromInit ∧ s.status.respPhase = .range ∧ s.round.pos = 0)
        ∨ (fcode u.mem = 0x05 ∧ s.status.respPhase = .poll ∧ 0 < s.round.pos.toNat ∧ fits)
        ∨ (fcode u.mem = 0x07 ∧ s.status.respPhase = .range ∧ 0 < s.round.pos.toNat ∧ fits)
    poll ∨ due →
      let b : State := if poll ∧ active then respAborted .respUnexpectedCode u else u
      let start : Stamp := if b.round.pos = 0 then s.stamps.rx else s.stamps.phaseRx
      let c : Byte := b.round.pos + 1
      let myTurn := c = s.session.waitPos
      let last := c.toNat + 1 = s.session.nodeCount.toNat
      let sched : Stamp := s.stamps.rx + s.timing.replyDelay.zeroExtend 40
      let value : Word :=
        if s.params.twrPairing = .standard ∧ b.status.respPhase = .range then
          (start - s.stamps.ackTx).extractLsb' 0 32
        else (sched - start).extractLsb' 0 32
      let f : List Byte :=
        [0x41, 0x88, s.seq, 0xCA, 0xDE, s.session.initId, 0x00, s.session.ownId, 0x00,
          if b.status.respPhase = .poll then 0x05 else 0x07] ++ le4 value ++ [0x00, 0x00]
      ∃ t, act .sequencer s = .next t
        ∧ t = { b with
                mem := t.mem
                clen := t.clen
                stamps :=
                  { s.stamps with
                    phaseRx := start
                    schedTx := if myTurn then sched else s.stamps.schedTx }
                out := s.out ++ [if myTurn then .tx f (.dly sched) true 0 else .rxon 0]
                round :=
                  if last then
                    if b.status.respPhase = .poll then { b.round with pos := 0 }
                    else
                      { pos := 0, rt := List.replicate s.params.cap 0, rd1 := List.replicate s.params.cap 0
                        rd2 := List.replicate s.params.cap 0 }
                  else { b.round with pos := c }
                seq := if last ∧ b.status.respPhase = .range then s.seq + 1 else s.seq
                status :=
                  { b.status with
                    respPhase :=
                      if last then (if b.status.respPhase = .poll then .range else .poll) else b.status.respPhase
                    roundDone := b.status.roundDone || decide (last ∧ b.status.respPhase = .range)
                    txPending := decide myTurn
                    txKind :=
                      if myTurn then (if b.status.respPhase = .poll then .ack else .final) else b.status.txKind } }
        ∧ (myTurn → HoldsFrame f s t)
        ∧ (¬ myTurn → t.mem = u.mem ∧ t.clen = u.clen)

/-- Frames that are not part of an exchange: a config for this node sets its session, a RESET clears the phase, and every
other config, a blink, a broadcast, an unknown code, an oversized or malformed frame is dropped; a pending error is cleared.
Each arms the receiver again, without timeout. The abort record's id 0 is R266's (log 18). -/
def Obligations.ControlFramesAndErrors : Prop :=
  (∀ s : State, RespTakes s →
      let u := take s
      let active := s.status.respPhase = .range ∨ 0 < s.round.pos.toNat
      let on := fun v : State => { v with out := s.out ++ [.rxon 0] }
      let po := headerLen u.mem + 1
      let own : Byte := u.mem.read (0x180 + (po + 1))
      let init : Byte := u.mem.read (0x180 + po)
      let n : Byte := u.mem.read (0x180 + (po + 2))
      let mine :=
        dstMode u.mem = .extended ∧ dstExt u.mem = s.eui ∧ po + 3 ≤ u.clen.toNat ∧ n ≠ 0
          ∧ n.toNat ≤ s.params.maxNodes
      (¬ TakesWellFormed s ∨ fcode u.mem = 0x01 ∨ fcode u.mem = 0x02 ∨ fcode u.mem = 0x00 ∨ 0x08 < fcode u.mem →
          act .sequencer s = .next (on u))
        ∧ (TakesWellFormed s → fcode u.mem = 0x08 →
          (active → act .sequencer s = .next (on (respAborted .respResetFrame u)))
            ∧ (¬ active → act .sequencer s = .next
                (on { u with
                      round :=
                        { pos := 0, rt := List.replicate s.params.cap 0, rd1 := List.replicate s.params.cap 0
                          rd2 := List.replicate s.params.cap 0 } })))
        ∧ (TakesWellFormed s → fcode u.mem = 0x03 → ¬ mine → act .sequencer s = .next (on u))
        ∧ (TakesWellFormed s → fcode u.mem = 0x03 → mine → act .sequencer s = .next
          (on { u with
                session :=
                  { ownId := own, initId := init, nodeCount := n
                    waitPos := BitVec.ofNat 8 ((own - init).toNat / 4)
                    targets :=
                      ((if own = init then [] else [init])
                        ++ ((List.range (n.toNat - 1)).map fun k => init + BitVec.ofNat 8 (4 * (k + 1))).filter
                          (· ≠ own)).take s.params.cap }
                round :=
                  { pos := 0, rt := List.replicate s.params.cap 0, rd1 := List.replicate s.params.cap 0
                    rd2 := List.replicate s.params.cap 0 }
                status := { u.status with respPhase := .poll, roundFail := u.status.roundFail || decide active }
                lastAbort :=
                  if active then { cause := .respConfig, evictId := 0, evictV := false } else s.lastAbort })))
    ∧ ∀ s : State, s.enable = true → s.role = .resp → s.status.txPending = false → s.status.msgPending = false →
      s.status.errPending = true →
        act .sequencer s = .next
          { s with status := { s.status with errPending := false }, out := s.out ++ [.rxon 0] }

/-- A responder's step neither reads nor writes the registry, `COORD_STATE`, `BACKOFF` and the coordinator's timestamps. -/
def Obligations.ResponderNeverUsesTheRegistry : Prop :=
  ∀ (s : State) (r : List Peer) (c : CoordState) (b : Bool) (x y z : Stamp), s.role = .resp →
    let g := fun v : State =>
      { v with
        registry := r
        status := { v.status with coordState := c, backoff := b }
        stamps := { v.stamps with txPoll := x, txRange := y, lastRx := z } }
    sequencerStep (g s) = (sequencerStep s).map g
      ∧ ∀ t, sequencerStep s = some t →
        t.registry = s.registry ∧ t.status.coordState = s.status.coordState ∧ t.status.backoff = s.status.backoff
          ∧ t.stamps.txPoll = s.stamps.txPoll ∧ t.stamps.txRange = s.stamps.txRange ∧ t.stamps.lastRx = s.stamps.lastRx

/-- A responder without an initiator, or with a wait position of 0 or at or beyond `NODE_COUNT`, never sends an ACK or a FINAL:
what it sends is a blink. The session of `NODE_COUNT` = 1 and `WAIT_POS` = 1 is left to `ArrivalRepliesAndAdvances`: there R240's
pseudocode replies, against R249, which is derived from it, and the model follows R240 (log 13). -/
def Obligations.UnconfiguredResponderNeverRanges : Prop :=
  (∀ s t : State, s.Inv → s.role = .resp → s.session.initId = 0 → act .sequencer s = .next t →
      s.status.txPending = false → t.status.txPending = true → t.status.txKind = .blink ∧ t.session.initId = 0)
    ∧ ∀ s t : State, s.Inv → s.role = .resp →
      s.session.waitPos = 0 ∨ s.session.nodeCount.toNat ≤ s.session.waitPos.toNat →
      ¬(s.session.nodeCount = 1 ∧ s.session.waitPos = 1) → act .sequencer s = .next t →
        s.status.txPending = false → t.status.txPending = true → t.status.txKind = .blink

/-! ### Radio events, the backoff timer -/

/-- The capture of a reception, a receive error and a receive timeout, in every role: only the mailbox and its flags change. -/
def Obligations.ReceptionIsCaptured : Prop :=
  (∀ (bytes : List Byte) (len : BitVec 16) (ts : Stamp) (s : State), bytes.length = len.toNat →
      ∃ t, act (.radio (.rxGood bytes len ts)) s = .next t
        ∧ t = { s with
                mem := t.mem
                inlen := len
                stamps := { s.stamps with rx := ts }
                status :=
                  { s.status with msgPending := true, overrun := s.status.overrun || s.status.msgPending } }
        ∧ (127 < len.toNat → t.mem = s.mem)
        ∧ (len.toNat ≤ 127 → ∀ k < 128, t.mem.read (0x100 + k) = bytes.getD k 0)
        ∧ ∀ a, (a < 0x100 ∨ 0x180 ≤ a) → t.mem.read a = s.mem.read a)
    ∧ ∀ (c : ErrCause) (s : State),
      act (.radio (match c with | .rxError => .rxError | .rxTimeout => .rxTimeout)) s = .next
        { s with
          status :=
            { s.status with
              errPending := true, errCause := c, overrun := s.status.overrun || s.status.errPending } }

/-- A transmission's completion: its timestamp is latched by kind and the transmission is over; a stray one does nothing. -/
def Obligations.TransmitDoneIsLatched : Prop :=
  ∀ (ts : Stamp) (s : State),
    (s.status.txPending = false → act (.radio (.txDone ts)) s = .next s)
      ∧ (s.status.txPending = true → act (.radio (.txDone ts)) s = .next
        { s with
          status := { s.status with txPending := false }
          stamps :=
            { s.stamps with
              tx := ts
              txPoll := if s.status.txKind = .poll then ts else s.stamps.txPoll
              txRange := if s.status.txKind = .range then ts else s.stamps.txRange
              ackTx := if s.status.txKind = .ack then ts else s.stamps.ackTx } })

/-- The backoff timer clears `BACKOFF` and does nothing else; while it is set no round starts. -/
def Obligations.BackoffTimerEndsTheBackoff : Prop :=
  ∀ s : State,
    act .backoffTimer s = .next { s with status := { s.status with backoff := false } }
      ∧ (s.role = .coord → s.status.coordState = .idle → s.status.backoff = true →
        ∀ t, act .sequencer s = .next t → t.out = s.out ∧ t.status.coordState = .idle)

/-- The radio log only grows, short of a block reset; at most one transmission is outstanding: while one is, none is asked for;
a step that asks for one leaves it outstanding; and only its completion or a block reset ends it. -/
def Obligations.OneTransmissionAtATime : Prop :=
  ∀ (a : Action) (s t : State), act a s = .next t → a ≠ .blockReset →
    (∃ l, t.out = s.out ++ l ∧ txCount l ≤ 1
        ∧ (s.status.txPending = true → txCount l = 0) ∧ (txCount l = 1 → t.status.txPending = true))
      ∧ (s.status.txPending = true → t.status.txPending = false → ∃ ts, a = .radio (.txDone ts))

/-- The session changes only by SESSION_SET, SEND_CONFIG, a config the responder takes, the responder's mismatch, and reset;
`SEQ` only by a host write, the responder's completed round, and reset. -/
def Obligations.SessionAndSequenceLifetime : Prop :=
  ∀ (a : Action) (s t : State), act a s = .next t → a ≠ .blockReset →
    (t.session ≠ s.session →
        ((∃ w, (a = .host (.write 4 0x00C w) ∨ a = .bus (.write 4 (s.params.blockBase + 0x00C) w))
            ∧ (w.extractLsb' 0 8 = 0x20 ∨ w.extractLsb' 0 8 = 0x21) ∧ t.cmdStatus.err = .none)
          ∨ (a = .sequencer ∧ s.role = .resp ∧ s.status.msgPending = true
            ∧ (fcode t.mem = 0x03 ∨ t.session = { s.session with initId := 0 }))))
      ∧ (t.seq ≠ s.seq →
        ((∃ v, a = .host (.write 4 0x048 v) ∨ a = .bus (.write 4 (s.params.blockBase + 0x048) v))
          ∨ (a = .sequencer ∧ s.role = .resp ∧ t.seq = s.seq + 1 ∧ t.status.roundDone = true)))

/-! ### Arithmetic -/

/-- A target is valid exactly if its exact distance lies in the open interval from 0 to `DIST_LIMIT`; a zero denominator is
invalid. -/
def Obligations.ValidityIsTheOpenInterval : Prop :=
  ∀ (s : State) (i : Nat),
    let v := intervals s i
    targetValid s i = true ↔
      0 < tofDen v ∧ 0 < exactDist v ∧ exactDist v < (s.distLimit.toNat : ℚ)

/-- The distance of a valid target is stored as the binary32 value nearest to the exact one, ties to even: a positive, finite,
normal number. -/
def Obligations.StoredDistanceIsNearestEven : Prop :=
  ∀ (s : State) (i : Nat), targetValid s i = true →
    NearestEven (exactDist (intervals s i)) (targetDist s i)
      ∧ (targetDist s i).getLsbD 31 = false
      ∧ 0 < ((targetDist s i).extractLsb' 23 8).toNat ∧ ((targetDist s i).extractLsb' 23 8).toNat < 255

/-- The four intervals of a target, and the laws of the time of flight: all intervals are 0 where the denominator is, both
pairings agree where `TC` = `RD2`, and equal flight times are recovered exactly. -/
def Obligations.TimeOfFlightLaws : Prop :=
  (∀ (s : State) (i : Nat),
      let rt := (s.round.rt.getD i 0).toNat
      let rd1 := (s.round.rd1.getD i 0).toNat
      let rd2 := (s.round.rd2.getD i 0).toNat
      let tc := (s.stamps.txRange - (s.round.rt.getD i 0 + s.stamps.txPoll)).toNat
      intervals s i =
        if s.params.twrPairing = .literal then { round1 := rt, reply1 := rd1, round2 := tc, reply2 := rd2 }
        else { round1 := rt, reply1 := rd1, round2 := rd2, reply2 := tc })
    ∧ (∀ (v : Intervals) (limit : Nat), tofDen v = 0 →
      v.round1 = 0 ∧ v.round2 = 0 ∧ v.reply1 = 0 ∧ v.reply2 = 0 ∧ distValid limit v = false)
    ∧ (∀ (v : Intervals),
      tofNum { round1 := v.round2, reply1 := v.reply2, round2 := v.round1, reply2 := v.reply1 } = tofNum v
        ∧ tofDen { round1 := v.round2, reply1 := v.reply2, round2 := v.round1, reply2 := v.reply1 } = tofDen v)
    ∧ (∀ (s : State) (i : Nat), (tcAt s i).toNat = (rd2At s i).toNat → ∀ p q : TwrPairing,
      intervals { s with params := { s.params with twrPairing := p } } i
        = intervals { s with params := { s.params with twrPairing := q } } i)
    ∧ ∀ (v : Intervals) (t : ℚ), 0 ≤ t → (v.round1 : ℚ) = v.reply1 + 2 * t → (v.round2 : ℚ) = v.reply2 + 2 * t →
      0 < tofDen v → (tofNum v : ℚ) / (tofDen v : ℚ) = t

/-! ### Laws of the codec, the registry and the session -/

/-- Every build followed by a PARSE of the same bytes gives back every field that was put in, and the frame is well formed. -/
def Obligations.BuildThenParse : Prop :=
  ∀ (i : Instr) (s t u : State), s.role = .none → exec i s = .next t → t.cmdStatus.err = .none →
    u.role = .none → u.inlen = t.clen.zeroExtend 16 →
    (∀ k < t.clen.toNat, u.mem.read (0x100 + k) = t.mem.read (0x180 + k)) →
    (i = .buildBlink ∨ i = .buildBcast ∨ (∃ a b c, i = .buildConfig a b c) ∨ ∃ f d, i = .buildRanging f d) →
      ∃ v, exec .parse u = .next v ∧ v.cmdStatus = ⟨0x05, true, .none, 0⟩ ∧ v.clen = t.clen
        ∧ (∀ k < 128, v.mem.read (0x180 + k) = t.mem.read (0x180 + k))
        ∧ wellFormed v.mem v.clen = true ∧ frameSeq v.mem = s.seq
        ∧ (i = .buildBlink →
          dstMode v.mem = .extended ∧ srcMode v.mem = .extended ∧ headerLen v.mem = 21 ∧ fcode v.mem = 0x01
            ∧ dstExt v.mem = s.args.xA ∧ srcExt v.mem = s.args.xB)
        ∧ (i = .buildBcast →
          dstMode v.mem = .short ∧ srcMode v.mem = .extended ∧ headerLen v.mem = 15 ∧ fcode v.mem = 0x02
            ∧ dstShort v.mem = 0xFFFF ∧ srcExt v.mem = s.args.xB)
        ∧ (∀ a b c, i = .buildConfig a b c →
          dstMode v.mem = .extended ∧ srcMode v.mem = .extended ∧ headerLen v.mem = 21 ∧ fcode v.mem = 0x03
            ∧ dstExt v.mem = s.args.xA ∧ srcExt v.mem = s.args.xB
            ∧ exec .parseConfig v
              = .next { v with cfgOut := { init := a, assigned := b, total := c }, cmdStatus := ⟨0x06, true, .none, 0⟩ })
        ∧ ∀ f d, i = .buildRanging f d →
          dstMode v.mem = .short ∧ srcMode v.mem = .short ∧ headerLen v.mem = 9 ∧ fcode v.mem = f
            ∧ dstShort v.mem = s.args.xA.extractLsb' 0 16 ∧ srcShort v.mem = d.zeroExtend 16 ∧ srcId v.mem = d
            ∧ (f = 0x05 ∨ f = 0x07 → frameTs v.mem = s.args.ts)

/-- From an empty registry, registrations of distinct addresses fill the slots in order with the ids 4, 8, 12, … above the
initiator's; a removal takes out one entry, keeps the order, and the next new address gets the freed stride position. -/
def Obligations.RegistryAssignsStrideIds : Prop :=
  (∀ (s : State) (xs : List ExtAddr), s.registry = [] → xs.Nodup → xs.length ≤ s.params.cap →
      (xs.foldl (fun v x => regAdd x v) s).registry
          = xs.mapIdx (fun k x => { addr := x, id := s.session.initId + BitVec.ofNat 8 (4 * (k + 1)), dist := 0 })
        ∧ (s.session.initId.toNat + s.params.cap * 4 < 256 →
          ∀ (k : Nat) (p : Peer), (xs.foldl (fun v x => regAdd x v) s).registry[k]? = some p →
            p.id.toNat = s.session.initId.toNat + 4 * (k + 1)))
    ∧ ∀ (s : State) (d : Byte) (k : Nat) (x : ExtAddr), findId d s = some k → s.registry.length ≤ s.params.cap →
      (∀ p ∈ (regRemove d s).registry, p.addr ≠ x) →
        (regRemove d s).registry = s.registry.take k ++ s.registry.drop (k + 1)
          ∧ (regRemove d s).registry.length + 1 = s.registry.length
          ∧ (regAdd x (regRemove d s)).registry
            = s.registry.take k ++ s.registry.drop (k + 1)
              ++ [{ addr := x, id := s.session.initId + BitVec.ofNat 8 (4 * s.registry.length), dist := 0 }]

/-- The target order of a session: a coordinator's own lists the stride ids above it; a responder's at wait position `w` lists
the initiator and the stride ids without its own. -/
def Obligations.SessionTargetOrder : Prop :=
  ∀ (init : Byte) (n w : Nat) (s : State), 1 ≤ n → n ≤ s.params.maxNodes → s.params.Legal →
    let ids := (List.range (n - 1)).map fun k => init + BitVec.ofNat 8 (4 * (k + 1))
    (w = 0 →
        (deriveSession init init (BitVec.ofNat 8 n) s).session
          = { ownId := init, initId := init, nodeCount := BitVec.ofNat 8 n, waitPos := 0, targets := ids })
      ∧ (1 ≤ w → w ≤ n - 1 →
        (deriveSession (init + BitVec.ofNat 8 (4 * w)) init (BitVec.ofNat 8 n) s).session
          = { ownId := init + BitVec.ofNat 8 (4 * w), initId := init, nodeCount := BitVec.ofNat 8 n
              waitPos := BitVec.ofNat 8 w, targets := init :: ids.eraseIdx (w - 1) })

/-- The nodes of a system share no state: a node's own step changes no other node; a delivery changes the receiver alone, as
a reception of the bytes that were sent, and never the sender. What may be delivered when is the model's choice (log 11). -/
def Obligations.NodesMeetOnlyThroughFrames : Prop :=
  (∀ (y : System) (n m : Nat), m ≠ n → (netStep (.own n) y).nodes[m]? = y.nodes[m]?)
    ∧ (∀ (y : System) (n : Nat) (s t : State), y.nodes[n]? = some s → step s = .next t →
      (netStep (.own n) y).nodes[n]? = some t)
    ∧ ∀ (y : System) (src k dst : Nat) (ts : Stamp) (s r : State) (f : List Byte) (md : TxMode) (ra : Bool) (tmo : Word),
      y.nodes[src]? = some s → (s.outBefore ++ s.out)[k]? = some (.tx f md ra tmo) → y.nodes[dst]? = some r → src ≠ dst →
        ∃ t, act (.radio (.rxGood f (BitVec.ofNat 16 f.length) ts)) r = .next t
          ∧ (netStep (.deliver src k dst ts) y).nodes[dst]? = some t
          ∧ ∀ m, m ≠ dst → (netStep (.deliver src k dst ts) y).nodes[m]? = y.nodes[m]?
end

