-- ==== Sys2Proof/Laws/Bytes.lean ====
section
/-! SUPPORT. Laws/Bytes: little-endian lists read back the value they were written from. -/

namespace Sys2Proof.Machine

@[simp] theorem length_leBytes (n v : Nat) : (leBytes n v).length = n := by
  induction n generalizing v with
  | zero => rfl
  | succ n ih => simp [leBytes, ih]

theorem leValue_leBytes (n v : Nat) : leValue (leBytes n v) = v % 256 ^ n := by
  induction n generalizing v with
  | zero => simp [leBytes, leValue, Nat.mod_one]
  | succ n ih =>
    rw [leBytes, leValue, ih, BitVec.toNat_ofNat, Nat.pow_succ' (n := n) (m := 256),
      show v % 2 ^ 8 = v % 256 from rfl]
    exact (Nat.mod_mul).symm

@[simp] theorem length_le2 (v : BitVec 16) : (le2 v).length = 2 := by simp [le2]
@[simp] theorem length_le4 (v : Word) : (le4 v).length = 4 := by simp [le4]
@[simp] theorem length_le8 (v : ExtAddr) : (le8 v).length = 8 := by simp [le8]

theorem leValue_le2 (v : BitVec 16) : leValue (le2 v) = v.toNat := by
  rw [le2, leValue_leBytes]; exact Nat.mod_eq_of_lt v.isLt

theorem leValue_le4 (v : Word) : leValue (le4 v) = v.toNat := by
  rw [le4, leValue_leBytes]; exact Nat.mod_eq_of_lt v.isLt

theorem leValue_le8 (v : ExtAddr) : leValue (le8 v) = v.toNat := by
  rw [le8, leValue_leBytes]; exact Nat.mod_eq_of_lt v.isLt

/-- Byte `k` of a little-endian value is byte `k` of the list. -/
theorem leValue_byte (l : List Byte) (k : Nat) (hk : k < l.length) :
    leValue l / 256 ^ k % 256 = (l.getD k 0).toNat := by
  induction l generalizing k with
  | nil => simp at hk
  | cons a l ih =>
    have ha := a.isLt
    cases k with
    | zero => simp [leValue]; try omega
    | succ k =>
      have := ih k (by simpa using hk)
      simp only [leValue, List.getD_cons_succ]
      rw [← this, pow_succ', ← Nat.div_div_eq_div_mul]
      congr 2
      omega

end Sys2Proof.Machine
end

