-- ==== Sys2Proof/Laws/Memory.lean ====
section
/-! SUPPORT. Laws/Memory: what a read sees after a store, and that a store keeps the canonical form. -/

namespace Sys2Proof.Machine

@[simp] theorem Memory.read_nil (a : Nat) : Memory.read [] a = 0 := rfl

theorem Memory.read_eq_zero_of_not_mem {m : Memory} {a : Nat} (h : ∀ c ∈ m, c.1 ≠ a) : m.read a = 0 := by
  induction m with
  | nil => rfl
  | cons c m ih =>
    obtain ⟨k, b⟩ := c
    rw [Memory.read, if_neg (h (k, b) (by simp))]
    exact ih fun c hc => h c (by simp [hc])

theorem Memory.read_append_right {m₁ m₂ : Memory} {a : Nat} (h : ∀ c ∈ m₁, c.1 ≠ a) :
    Memory.read (m₁ ++ m₂) a = m₂.read a := by
  induction m₁ with
  | nil => rfl
  | cons c m ih =>
    obtain ⟨k, b⟩ := c
    rw [List.cons_append, Memory.read, if_neg (h (k, b) (by simp))]
    exact ih fun c hc => h c (by simp [hc])

theorem Memory.read_append_left {m₁ m₂ : Memory} {a : Nat} (h : ∀ c ∈ m₂, c.1 ≠ a) :
    Memory.read (m₁ ++ m₂) a = m₁.read a := by
  induction m₁ with
  | nil => exact Memory.read_eq_zero_of_not_mem h
  | cons c m ih =>
    obtain ⟨k, b⟩ := c
    rw [List.cons_append, Memory.read, Memory.read, ih]

theorem Memory.read_filter {m : Memory} {p : Nat → Bool} {a : Nat} :
    Memory.read (m.filter fun c => p c.1) a = if p a then m.read a else 0 := by
  induction m with
  | nil => simp
  | cons c m ih =>
    obtain ⟨k, b⟩ := c
    by_cases hp : p k
    · rw [List.filter_cons_of_pos (by simpa using hp), Memory.read, Memory.read, ih]
      by_cases hk : k = a
      · subst hk; simp [hp]
      · simp [hk]
    · rw [List.filter_cons_of_neg (by simpa using hp), ih, Memory.read]
      by_cases hk : k = a
      · subst hk; simp [hp]
      · simp [hk]

theorem Memory.cellsFrom_bounds {lo : Nat} {bs : List Byte} :
    ∀ c ∈ Memory.cellsFrom lo bs, lo ≤ c.1 ∧ c.1 < lo + bs.length ∧ c.2 ≠ 0 := by
  induction bs generalizing lo with
  | nil => simp [Memory.cellsFrom]
  | cons b bs ih =>
    intro c hc
    rw [Memory.cellsFrom] at hc
    split at hc
    · have := ih c hc
      simp only [List.length_cons]; exact ⟨by omega, by omega, this.2.2⟩
    · rename_i hb
      rcases List.mem_cons.mp hc with rfl | hc
      · simp only [List.length_cons]; exact ⟨by omega, by omega, hb⟩
      · have := ih c hc
        simp only [List.length_cons]; exact ⟨by omega, by omega, this.2.2⟩

theorem Memory.cellsFrom_sorted (lo : Nat) (bs : List Byte) :
    (Memory.cellsFrom lo bs).Pairwise (fun c d => c.1 < d.1) := by
  induction bs generalizing lo with
  | nil => simp [Memory.cellsFrom]
  | cons b bs ih =>
    rw [Memory.cellsFrom]
    split
    · exact ih _
    · refine List.pairwise_cons.mpr ⟨fun c hc => ?_, ih _⟩
      have := Memory.cellsFrom_bounds c hc
      simp only; omega

theorem Memory.read_cellsFrom (lo : Nat) (bs : List Byte) (a : Nat) :
    (Memory.cellsFrom lo bs).read a = if lo ≤ a then bs.getD (a - lo) 0 else 0 := by
  induction bs generalizing lo with
  | nil => simp [Memory.cellsFrom]
  | cons b bs ih =>
    by_cases ha : a = lo
    · subst ha
      rw [Memory.cellsFrom]
      split
      · rename_i hb
        simp [ih, hb]
      · simp [Memory.read]
    · have hne : ¬ lo = a := fun h => ha h.symm
      have hstep : (Memory.cellsFrom lo (b :: bs)).read a = (Memory.cellsFrom (lo + 1) bs).read a := by
        rw [Memory.cellsFrom]
        split
        · rfl
        · rw [Memory.read, if_neg hne]
      rw [hstep, ih]
      by_cases hle : lo ≤ a
      · obtain ⟨d, rfl⟩ : ∃ d, a = lo + 1 + d := ⟨a - (lo + 1), by omega⟩
        rw [if_pos (by omega), if_pos (by omega), show lo + 1 + d - (lo + 1) = d by omega,
          show lo + 1 + d - lo = d + 1 by omega]
        simp
      · rw [if_neg (by omega), if_neg hle]

/-- What a store leaves at every address: the stored bytes, zero-filled, inside; the old byte outside. -/
theorem Memory.read_store (m : Memory) (lo len : Nat) (bs : List Byte) (a : Nat) :
    (m.store lo len bs).read a = if lo ≤ a ∧ a < lo + len then bs.getD (a - lo) 0 else m.read a := by
  have hmid := Memory.read_cellsFrom lo (bs.take len) a
  have hb := @Memory.cellsFrom_bounds lo (bs.take len)
  have hlen : (bs.take len).length ≤ len := by simp
  have hlow := @Memory.read_filter m (fun k => decide (k < lo)) a
  have hhigh := @Memory.read_filter m (fun k => decide (lo + len ≤ k)) a
  have out_low : ¬ a < lo → ∀ c ∈ m.filter (fun c => decide (c.1 < lo)), c.1 ≠ a := by
    rintro h c hc rfl
    exact h (by simpa using (List.mem_filter.mp hc).2)
  have out_mid : ¬ (lo ≤ a ∧ a < lo + len) → ∀ c ∈ Memory.cellsFrom lo (bs.take len), c.1 ≠ a := by
    rintro h c hc rfl
    have := hb c hc
    omega
  have out_high : ¬ lo + len ≤ a → ∀ c ∈ m.filter (fun c => decide (lo + len ≤ c.1)), c.1 ≠ a := by
    rintro h c hc rfl
    exact h (by simpa using (List.mem_filter.mp hc).2)
  rw [Memory.store]
  by_cases h : lo ≤ a ∧ a < lo + len
  · rw [Memory.read_append_left (out_high (by omega)), Memory.read_append_right (out_low (by omega)), hmid,
      if_pos h.1, if_pos h]
    simp [List.getD_eq_getElem?_getD, List.getElem?_take, show a - lo < len by omega]
  · rw [if_neg h]
    by_cases hl : a < lo
    · rw [Memory.read_append_left (out_high (by omega)), Memory.read_append_left (out_mid h), hlow,
        if_pos (by simpa using hl)]
    · rw [Memory.read_append_right (fun c hc => (List.mem_append.mp hc).elim (out_low hl c) (out_mid h c)), hhigh,
        if_pos (by simp; omega)]

/-- A store keeps the canonical form. -/
theorem Memory.store_wf {m : Memory} (h : m.Wf) (lo len : Nat) (bs : List Byte) :
    (m.store lo len bs).Wf := by
  have hb := @Memory.cellsFrom_bounds lo (bs.take len)
  have hlen : (bs.take len).length ≤ len := by simp
  refine ⟨?_, ?_⟩
  · rw [Memory.store, List.append_assoc]
    refine List.pairwise_append.mpr ⟨h.1.filter _, List.pairwise_append.mpr
      ⟨Memory.cellsFrom_sorted _ _, h.1.filter _, fun c hc d hd => ?_⟩, fun c hc d hd => ?_⟩
    · have := hb c hc
      simp at hd; omega
    · simp at hc
      rcases List.mem_append.mp hd with hd | hd
      · have := hb d hd; omega
      · simp at hd; omega
  · intro c hc
    rw [Memory.store] at hc
    rcases List.mem_append.mp hc with hc | hc
    · rcases List.mem_append.mp hc with hc | hc
      · exact h.2 c (List.mem_of_mem_filter hc)
      · exact (hb c hc).2.2
    · exact h.2 c (List.mem_of_mem_filter hc)

/-- A store adds no address outside the bytes it writes. -/
theorem Memory.store_bounds {m : Memory} {lo len a b : Nat} {bs : List Byte}
    (h : ∀ c ∈ m, a ≤ c.1 ∧ c.1 < b) (hlo : a ≤ lo) (hhi : lo + len ≤ b) :
    ∀ c ∈ m.store lo len bs, a ≤ c.1 ∧ c.1 < b := by
  intro c hc
  have hb := @Memory.cellsFrom_bounds lo (bs.take len)
  have hlen : (bs.take len).length ≤ len := by simp
  rw [Memory.store] at hc
  rcases List.mem_append.mp hc with hc | hc
  · rcases List.mem_append.mp hc with hc | hc
    · exact h c (List.mem_of_mem_filter hc)
    · have := hb c hc; omega
  · exact h c (List.mem_of_mem_filter hc)

@[simp] theorem Memory.length_bytes (m : Memory) (lo n : Nat) : (m.bytes lo n).length = n := by
  simp [Memory.bytes]

@[simp] theorem length_cbufBytes (m : Memory) (n : Nat) : (cbufBytes m n).length = n := by
  simp [cbufBytes]

@[simp] theorem length_inbufBytes (m : Memory) (n : Nat) : (inbufBytes m n).length = n := by
  simp [inbufBytes]

theorem Memory.getElem_bytes (m : Memory) (lo n k : Nat) (h : k < (m.bytes lo n).length) :
    (m.bytes lo n)[k] = m.read (lo + k) := by
  simp [Memory.bytes]

theorem Memory.getD_bytes (m : Memory) (lo n k : Nat) :
    (m.bytes lo n).getD k 0 = if k < n then m.read (lo + k) else 0 := by
  by_cases h : k < n <;> simp [Memory.bytes, List.getD_eq_getElem?_getD, h]

/-- Two memories in canonical form that read alike are the same list. -/
theorem Memory.ext_of_wf {m₁ m₂ : Memory} (h₁ : m₁.Wf) (h₂ : m₂.Wf) (h : ∀ a, m₁.read a = m₂.read a) :
    m₁ = m₂ := by
  have key : ∀ (m : Memory), m.Wf → ∀ c ∈ m, m.read c.1 = c.2 := by
    intro m hm c hc
    induction m with
    | nil => simp at hc
    | cons d m ih =>
      obtain ⟨k, b⟩ := d
      have hs := List.pairwise_cons.mp hm.1
      rcases List.mem_cons.mp hc with rfl | hc'
      · simp [Memory.read]
      · rw [Memory.read, if_neg (by have := hs.1 c hc'; simp at this; omega)]
        exact ih ⟨hs.2, fun d hd => hm.2 d (by simp [hd])⟩ hc'
  have sub : ∀ (m m' : Memory), m.Wf → m'.Wf → (∀ a, m.read a = m'.read a) → ∀ c ∈ m, c ∈ m' := by
    intro m m' hm hm' hr c hc
    have h1 := key m hm c hc
    have hne := hm.2 c hc
    rw [hr] at h1
    by_contra hn
    by_cases hex : ∃ d ∈ m', d.1 = c.1
    · obtain ⟨d, hd, hdc⟩ := hex
      have h2 := key m' hm' d hd
      rw [hdc, h1] at h2
      exact hn (by rwa [show c = d from Prod.ext hdc.symm h2])
    · exact hne (by rw [← h1]; exact Memory.read_eq_zero_of_not_mem fun d hd hdc => hex ⟨d, hd, hdc⟩)
  have nod : ∀ m : Memory, m.Wf → m.Nodup := fun m hm =>
    hm.1.imp fun {c d} hlt heq => by subst heq; omega
  have hp : m₁.Perm m₂ := (List.perm_ext_iff_of_nodup (nod _ h₁) (nod _ h₂)).mpr fun c =>
    ⟨sub _ _ h₁ h₂ h c, sub _ _ h₂ h₁ (fun a => (h a).symm) c⟩
  exact hp.eq_of_pairwise (fun c d _ _ hcd hdc => absurd hcd (by omega)) h₁.1 h₂.1

end Sys2Proof.Machine
end

