-- ==== Sys2Proof/Laws/State.lean ====
section
/-! SUPPORT. Laws/State: what each named update does to each field of State, one lemma per field per update. -/

namespace Sys2Proof.Machine

/-! ### refuse -/

@[simp] theorem refuse_params (opc : Byte) (code : ErrCode) (s : State) :
    (refuse opc code s).params = s.params := rfl
@[simp] theorem refuse_enable (opc : Byte) (code : ErrCode) (s : State) :
    (refuse opc code s).enable = s.enable := rfl
@[simp] theorem refuse_role (opc : Byte) (code : ErrCode) (s : State) :
    (refuse opc code s).role = s.role := rfl
@[simp] theorem refuse_status (opc : Byte) (code : ErrCode) (s : State) :
    (refuse opc code s).status = s.status := rfl
@[simp] theorem refuse_irqEn (opc : Byte) (code : ErrCode) (s : State) :
    (refuse opc code s).irqEn = s.irqEn := rfl
@[simp] theorem refuse_cmdStatus (opc : Byte) (code : ErrCode) (s : State) :
    (refuse opc code s).cmdStatus = { opc := opc, ok := false, err := code, resId := 0 } := rfl
@[simp] theorem refuse_args (opc : Byte) (code : ErrCode) (s : State) :
    (refuse opc code s).args = s.args := rfl
@[simp] theorem refuse_cfgOut (opc : Byte) (code : ErrCode) (s : State) :
    (refuse opc code s).cfgOut = s.cfgOut := rfl
@[simp] theorem refuse_eui (opc : Byte) (code : ErrCode) (s : State) :
    (refuse opc code s).eui = s.eui := rfl
@[simp] theorem refuse_session (opc : Byte) (code : ErrCode) (s : State) :
    (refuse opc code s).session = s.session := rfl
@[simp] theorem refuse_round (opc : Byte) (code : ErrCode) (s : State) :
    (refuse opc code s).round = s.round := rfl
@[simp] theorem refuse_seq (opc : Byte) (code : ErrCode) (s : State) :
    (refuse opc code s).seq = s.seq := rfl
@[simp] theorem refuse_timing (opc : Byte) (code : ErrCode) (s : State) :
    (refuse opc code s).timing = s.timing := rfl
@[simp] theorem refuse_distLimit (opc : Byte) (code : ErrCode) (s : State) :
    (refuse opc code s).distLimit = s.distLimit := rfl
@[simp] theorem refuse_lastAbort (opc : Byte) (code : ErrCode) (s : State) :
    (refuse opc code s).lastAbort = s.lastAbort := rfl
@[simp] theorem refuse_registry (opc : Byte) (code : ErrCode) (s : State) :
    (refuse opc code s).registry = s.registry := rfl
@[simp] theorem refuse_stamps (opc : Byte) (code : ErrCode) (s : State) :
    (refuse opc code s).stamps = s.stamps := rfl
@[simp] theorem refuse_mem (opc : Byte) (code : ErrCode) (s : State) :
    (refuse opc code s).mem = s.mem := rfl
@[simp] theorem refuse_inlen (opc : Byte) (code : ErrCode) (s : State) :
    (refuse opc code s).inlen = s.inlen := rfl
@[simp] theorem refuse_clen (opc : Byte) (code : ErrCode) (s : State) :
    (refuse opc code s).clen = s.clen := rfl
@[simp] theorem refuse_out (opc : Byte) (code : ErrCode) (s : State) :
    (refuse opc code s).out = s.out := rfl
@[simp] theorem refuse_readData (opc : Byte) (code : ErrCode) (s : State) :
    (refuse opc code s).readData = s.readData := rfl
@[simp] theorem refuse_schedule (opc : Byte) (code : ErrCode) (s : State) :
    (refuse opc code s).schedule = s.schedule := rfl
@[simp] theorem refuse_envTick (opc : Byte) (code : ErrCode) (s : State) :
    (refuse opc code s).envTick = s.envTick := rfl
@[simp] theorem refuse_draws (opc : Byte) (code : ErrCode) (s : State) :
    (refuse opc code s).draws = s.draws := rfl
@[simp] theorem refuse_outBefore (opc : Byte) (code : ErrCode) (s : State) :
    (refuse opc code s).outBefore = s.outBefore := rfl

/-! ### finish -/

@[simp] theorem finish_params (opc : Byte) (ok : Bool) (r : Byte) (s : State) :
    (finish opc ok r s).params = s.params := rfl
@[simp] theorem finish_enable (opc : Byte) (ok : Bool) (r : Byte) (s : State) :
    (finish opc ok r s).enable = s.enable := rfl
@[simp] theorem finish_role (opc : Byte) (ok : Bool) (r : Byte) (s : State) :
    (finish opc ok r s).role = s.role := rfl
@[simp] theorem finish_status (opc : Byte) (ok : Bool) (r : Byte) (s : State) :
    (finish opc ok r s).status = s.status := rfl
@[simp] theorem finish_irqEn (opc : Byte) (ok : Bool) (r : Byte) (s : State) :
    (finish opc ok r s).irqEn = s.irqEn := rfl
@[simp] theorem finish_cmdStatus (opc : Byte) (ok : Bool) (r : Byte) (s : State) :
    (finish opc ok r s).cmdStatus = { opc := opc, ok := ok, err := .none, resId := r } := rfl
@[simp] theorem finish_args (opc : Byte) (ok : Bool) (r : Byte) (s : State) :
    (finish opc ok r s).args = s.args := rfl
@[simp] theorem finish_cfgOut (opc : Byte) (ok : Bool) (r : Byte) (s : State) :
    (finish opc ok r s).cfgOut = s.cfgOut := rfl
@[simp] theorem finish_eui (opc : Byte) (ok : Bool) (r : Byte) (s : State) :
    (finish opc ok r s).eui = s.eui := rfl
@[simp] theorem finish_session (opc : Byte) (ok : Bool) (r : Byte) (s : State) :
    (finish opc ok r s).session = s.session := rfl
@[simp] theorem finish_round (opc : Byte) (ok : Bool) (r : Byte) (s : State) :
    (finish opc ok r s).round = s.round := rfl
@[simp] theorem finish_seq (opc : Byte) (ok : Bool) (r : Byte) (s : State) :
    (finish opc ok r s).seq = s.seq := rfl
@[simp] theorem finish_timing (opc : Byte) (ok : Bool) (r : Byte) (s : State) :
    (finish opc ok r s).timing = s.timing := rfl
@[simp] theorem finish_distLimit (opc : Byte) (ok : Bool) (r : Byte) (s : State) :
    (finish opc ok r s).distLimit = s.distLimit := rfl
@[simp] theorem finish_lastAbort (opc : Byte) (ok : Bool) (r : Byte) (s : State) :
    (finish opc ok r s).lastAbort = s.lastAbort := rfl
@[simp] theorem finish_registry (opc : Byte) (ok : Bool) (r : Byte) (s : State) :
    (finish opc ok r s).registry = s.registry := rfl
@[simp] theorem finish_stamps (opc : Byte) (ok : Bool) (r : Byte) (s : State) :
    (finish opc ok r s).stamps = s.stamps := rfl
@[simp] theorem finish_mem (opc : Byte) (ok : Bool) (r : Byte) (s : State) :
    (finish opc ok r s).mem = s.mem := rfl
@[simp] theorem finish_inlen (opc : Byte) (ok : Bool) (r : Byte) (s : State) :
    (finish opc ok r s).inlen = s.inlen := rfl
@[simp] theorem finish_clen (opc : Byte) (ok : Bool) (r : Byte) (s : State) :
    (finish opc ok r s).clen = s.clen := rfl
@[simp] theorem finish_out (opc : Byte) (ok : Bool) (r : Byte) (s : State) :
    (finish opc ok r s).out = s.out := rfl
@[simp] theorem finish_readData (opc : Byte) (ok : Bool) (r : Byte) (s : State) :
    (finish opc ok r s).readData = s.readData := rfl
@[simp] theorem finish_schedule (opc : Byte) (ok : Bool) (r : Byte) (s : State) :
    (finish opc ok r s).schedule = s.schedule := rfl
@[simp] theorem finish_envTick (opc : Byte) (ok : Bool) (r : Byte) (s : State) :
    (finish opc ok r s).envTick = s.envTick := rfl
@[simp] theorem finish_draws (opc : Byte) (ok : Bool) (r : Byte) (s : State) :
    (finish opc ok r s).draws = s.draws := rfl
@[simp] theorem finish_outBefore (opc : Byte) (ok : Bool) (r : Byte) (s : State) :
    (finish opc ok r s).outBefore = s.outBefore := rfl

/-! ### emit -/

@[simp] theorem emit_params (r : RadioRequest) (s : State) :
    (emit r s).params = s.params := rfl
@[simp] theorem emit_enable (r : RadioRequest) (s : State) :
    (emit r s).enable = s.enable := rfl
@[simp] theorem emit_role (r : RadioRequest) (s : State) :
    (emit r s).role = s.role := rfl
@[simp] theorem emit_status (r : RadioRequest) (s : State) :
    (emit r s).status = s.status := rfl
@[simp] theorem emit_irqEn (r : RadioRequest) (s : State) :
    (emit r s).irqEn = s.irqEn := rfl
@[simp] theorem emit_cmdStatus (r : RadioRequest) (s : State) :
    (emit r s).cmdStatus = s.cmdStatus := rfl
@[simp] theorem emit_args (r : RadioRequest) (s : State) :
    (emit r s).args = s.args := rfl
@[simp] theorem emit_cfgOut (r : RadioRequest) (s : State) :
    (emit r s).cfgOut = s.cfgOut := rfl
@[simp] theorem emit_eui (r : RadioRequest) (s : State) :
    (emit r s).eui = s.eui := rfl
@[simp] theorem emit_session (r : RadioRequest) (s : State) :
    (emit r s).session = s.session := rfl
@[simp] theorem emit_round (r : RadioRequest) (s : State) :
    (emit r s).round = s.round := rfl
@[simp] theorem emit_seq (r : RadioRequest) (s : State) :
    (emit r s).seq = s.seq := rfl
@[simp] theorem emit_timing (r : RadioRequest) (s : State) :
    (emit r s).timing = s.timing := rfl
@[simp] theorem emit_distLimit (r : RadioRequest) (s : State) :
    (emit r s).distLimit = s.distLimit := rfl
@[simp] theorem emit_lastAbort (r : RadioRequest) (s : State) :
    (emit r s).lastAbort = s.lastAbort := rfl
@[simp] theorem emit_registry (r : RadioRequest) (s : State) :
    (emit r s).registry = s.registry := rfl
@[simp] theorem emit_stamps (r : RadioRequest) (s : State) :
    (emit r s).stamps = s.stamps := rfl
@[simp] theorem emit_mem (r : RadioRequest) (s : State) :
    (emit r s).mem = s.mem := rfl
@[simp] theorem emit_inlen (r : RadioRequest) (s : State) :
    (emit r s).inlen = s.inlen := rfl
@[simp] theorem emit_clen (r : RadioRequest) (s : State) :
    (emit r s).clen = s.clen := rfl
@[simp] theorem emit_out (r : RadioRequest) (s : State) :
    (emit r s).out = s.out ++ [r] := rfl
@[simp] theorem emit_readData (r : RadioRequest) (s : State) :
    (emit r s).readData = s.readData := rfl
@[simp] theorem emit_schedule (r : RadioRequest) (s : State) :
    (emit r s).schedule = s.schedule := rfl
@[simp] theorem emit_envTick (r : RadioRequest) (s : State) :
    (emit r s).envTick = s.envTick := rfl
@[simp] theorem emit_draws (r : RadioRequest) (s : State) :
    (emit r s).draws = s.draws := rfl
@[simp] theorem emit_outBefore (r : RadioRequest) (s : State) :
    (emit r s).outBefore = s.outBefore := rfl

/-! ### rxOn -/

@[simp] theorem rxOn_params (t : Word) (s : State) :
    (rxOn t s).params = s.params := rfl
@[simp] theorem rxOn_enable (t : Word) (s : State) :
    (rxOn t s).enable = s.enable := rfl
@[simp] theorem rxOn_role (t : Word) (s : State) :
    (rxOn t s).role = s.role := rfl
@[simp] theorem rxOn_status (t : Word) (s : State) :
    (rxOn t s).status = s.status := rfl
@[simp] theorem rxOn_irqEn (t : Word) (s : State) :
    (rxOn t s).irqEn = s.irqEn := rfl
@[simp] theorem rxOn_cmdStatus (t : Word) (s : State) :
    (rxOn t s).cmdStatus = s.cmdStatus := rfl
@[simp] theorem rxOn_args (t : Word) (s : State) :
    (rxOn t s).args = s.args := rfl
@[simp] theorem rxOn_cfgOut (t : Word) (s : State) :
    (rxOn t s).cfgOut = s.cfgOut := rfl
@[simp] theorem rxOn_eui (t : Word) (s : State) :
    (rxOn t s).eui = s.eui := rfl
@[simp] theorem rxOn_session (t : Word) (s : State) :
    (rxOn t s).session = s.session := rfl
@[simp] theorem rxOn_round (t : Word) (s : State) :
    (rxOn t s).round = s.round := rfl
@[simp] theorem rxOn_seq (t : Word) (s : State) :
    (rxOn t s).seq = s.seq := rfl
@[simp] theorem rxOn_timing (t : Word) (s : State) :
    (rxOn t s).timing = s.timing := rfl
@[simp] theorem rxOn_distLimit (t : Word) (s : State) :
    (rxOn t s).distLimit = s.distLimit := rfl
@[simp] theorem rxOn_lastAbort (t : Word) (s : State) :
    (rxOn t s).lastAbort = s.lastAbort := rfl
@[simp] theorem rxOn_registry (t : Word) (s : State) :
    (rxOn t s).registry = s.registry := rfl
@[simp] theorem rxOn_stamps (t : Word) (s : State) :
    (rxOn t s).stamps = s.stamps := rfl
@[simp] theorem rxOn_mem (t : Word) (s : State) :
    (rxOn t s).mem = s.mem := rfl
@[simp] theorem rxOn_inlen (t : Word) (s : State) :
    (rxOn t s).inlen = s.inlen := rfl
@[simp] theorem rxOn_clen (t : Word) (s : State) :
    (rxOn t s).clen = s.clen := rfl
@[simp] theorem rxOn_out (t : Word) (s : State) :
    (rxOn t s).out = s.out ++ [.rxon t] := rfl
@[simp] theorem rxOn_readData (t : Word) (s : State) :
    (rxOn t s).readData = s.readData := rfl
@[simp] theorem rxOn_schedule (t : Word) (s : State) :
    (rxOn t s).schedule = s.schedule := rfl
@[simp] theorem rxOn_envTick (t : Word) (s : State) :
    (rxOn t s).envTick = s.envTick := rfl
@[simp] theorem rxOn_draws (t : Word) (s : State) :
    (rxOn t s).draws = s.draws := rfl
@[simp] theorem rxOn_outBefore (t : Word) (s : State) :
    (rxOn t s).outBefore = s.outBefore := rfl

/-! ### armWindow -/

@[simp] theorem armWindow_params (s : State) :
    (armWindow s).params = s.params := rfl
@[simp] theorem armWindow_enable (s : State) :
    (armWindow s).enable = s.enable := rfl
@[simp] theorem armWindow_role (s : State) :
    (armWindow s).role = s.role := rfl
@[simp] theorem armWindow_status (s : State) :
    (armWindow s).status = s.status := rfl
@[simp] theorem armWindow_irqEn (s : State) :
    (armWindow s).irqEn = s.irqEn := rfl
@[simp] theorem armWindow_cmdStatus (s : State) :
    (armWindow s).cmdStatus = s.cmdStatus := rfl
@[simp] theorem armWindow_args (s : State) :
    (armWindow s).args = s.args := rfl
@[simp] theorem armWindow_cfgOut (s : State) :
    (armWindow s).cfgOut = s.cfgOut := rfl
@[simp] theorem armWindow_eui (s : State) :
    (armWindow s).eui = s.eui := rfl
@[simp] theorem armWindow_session (s : State) :
    (armWindow s).session = s.session := rfl
@[simp] theorem armWindow_round (s : State) :
    (armWindow s).round = s.round := rfl
@[simp] theorem armWindow_seq (s : State) :
    (armWindow s).seq = s.seq := rfl
@[simp] theorem armWindow_timing (s : State) :
    (armWindow s).timing = s.timing := rfl
@[simp] theorem armWindow_distLimit (s : State) :
    (armWindow s).distLimit = s.distLimit := rfl
@[simp] theorem armWindow_lastAbort (s : State) :
    (armWindow s).lastAbort = s.lastAbort := rfl
@[simp] theorem armWindow_registry (s : State) :
    (armWindow s).registry = s.registry := rfl
@[simp] theorem armWindow_stamps (s : State) :
    (armWindow s).stamps = s.stamps := rfl
@[simp] theorem armWindow_mem (s : State) :
    (armWindow s).mem = s.mem := rfl
@[simp] theorem armWindow_inlen (s : State) :
    (armWindow s).inlen = s.inlen := rfl
@[simp] theorem armWindow_clen (s : State) :
    (armWindow s).clen = s.clen := rfl
@[simp] theorem armWindow_out (s : State) :
    (armWindow s).out = s.out ++ [.rxon s.timing.rxTimeout] := rfl
@[simp] theorem armWindow_readData (s : State) :
    (armWindow s).readData = s.readData := rfl
@[simp] theorem armWindow_schedule (s : State) :
    (armWindow s).schedule = s.schedule := rfl
@[simp] theorem armWindow_envTick (s : State) :
    (armWindow s).envTick = s.envTick := rfl
@[simp] theorem armWindow_draws (s : State) :
    (armWindow s).draws = s.draws := rfl
@[simp] theorem armWindow_outBefore (s : State) :
    (armWindow s).outBefore = s.outBefore := rfl

/-! ### rearm -/

@[simp] theorem rearm_params (s : State) :
    (rearm s).params = s.params := rfl
@[simp] theorem rearm_enable (s : State) :
    (rearm s).enable = s.enable := rfl
@[simp] theorem rearm_role (s : State) :
    (rearm s).role = s.role := rfl
@[simp] theorem rearm_status (s : State) :
    (rearm s).status = s.status := rfl
@[simp] theorem rearm_irqEn (s : State) :
    (rearm s).irqEn = s.irqEn := rfl
@[simp] theorem rearm_cmdStatus (s : State) :
    (rearm s).cmdStatus = s.cmdStatus := rfl
@[simp] theorem rearm_args (s : State) :
    (rearm s).args = s.args := rfl
@[simp] theorem rearm_cfgOut (s : State) :
    (rearm s).cfgOut = s.cfgOut := rfl
@[simp] theorem rearm_eui (s : State) :
    (rearm s).eui = s.eui := rfl
@[simp] theorem rearm_session (s : State) :
    (rearm s).session = s.session := rfl
@[simp] theorem rearm_round (s : State) :
    (rearm s).round = s.round := rfl
@[simp] theorem rearm_seq (s : State) :
    (rearm s).seq = s.seq := rfl
@[simp] theorem rearm_timing (s : State) :
    (rearm s).timing = s.timing := rfl
@[simp] theorem rearm_distLimit (s : State) :
    (rearm s).distLimit = s.distLimit := rfl
@[simp] theorem rearm_lastAbort (s : State) :
    (rearm s).lastAbort = s.lastAbort := rfl
@[simp] theorem rearm_registry (s : State) :
    (rearm s).registry = s.registry := rfl
@[simp] theorem rearm_stamps (s : State) :
    (rearm s).stamps = s.stamps := rfl
@[simp] theorem rearm_mem (s : State) :
    (rearm s).mem = s.mem := rfl
@[simp] theorem rearm_inlen (s : State) :
    (rearm s).inlen = s.inlen := rfl
@[simp] theorem rearm_clen (s : State) :
    (rearm s).clen = s.clen := rfl
@[simp] theorem rearm_out (s : State) :
    (rearm s).out = s.out ++ [.rxon 0] := rfl
@[simp] theorem rearm_readData (s : State) :
    (rearm s).readData = s.readData := rfl
@[simp] theorem rearm_schedule (s : State) :
    (rearm s).schedule = s.schedule := rfl
@[simp] theorem rearm_envTick (s : State) :
    (rearm s).envTick = s.envTick := rfl
@[simp] theorem rearm_draws (s : State) :
    (rearm s).draws = s.draws := rfl
@[simp] theorem rearm_outBefore (s : State) :
    (rearm s).outBefore = s.outBefore := rfl

/-! ### txRequest -/

@[simp] theorem txRequest_params (k : TxKind) (n : Nat) (m : TxMode) (a : Bool) (t : Word) (s : State) :
    (txRequest k n m a t s).params = s.params := rfl
@[simp] theorem txRequest_enable (k : TxKind) (n : Nat) (m : TxMode) (a : Bool) (t : Word) (s : State) :
    (txRequest k n m a t s).enable = s.enable := rfl
@[simp] theorem txRequest_role (k : TxKind) (n : Nat) (m : TxMode) (a : Bool) (t : Word) (s : State) :
    (txRequest k n m a t s).role = s.role := rfl
@[simp] theorem txRequest_status (k : TxKind) (n : Nat) (m : TxMode) (a : Bool) (t : Word) (s : State) :
    (txRequest k n m a t s).status = { s.status with txPending := true, txKind := k } := rfl
@[simp] theorem txRequest_irqEn (k : TxKind) (n : Nat) (m : TxMode) (a : Bool) (t : Word) (s : State) :
    (txRequest k n m a t s).irqEn = s.irqEn := rfl
@[simp] theorem txRequest_cmdStatus (k : TxKind) (n : Nat) (m : TxMode) (a : Bool) (t : Word) (s : State) :
    (txRequest k n m a t s).cmdStatus = s.cmdStatus := rfl
@[simp] theorem txRequest_args (k : TxKind) (n : Nat) (m : TxMode) (a : Bool) (t : Word) (s : State) :
    (txRequest k n m a t s).args = s.args := rfl
@[simp] theorem txRequest_cfgOut (k : TxKind) (n : Nat) (m : TxMode) (a : Bool) (t : Word) (s : State) :
    (txRequest k n m a t s).cfgOut = s.cfgOut := rfl
@[simp] theorem txRequest_eui (k : TxKind) (n : Nat) (m : TxMode) (a : Bool) (t : Word) (s : State) :
    (txRequest k n m a t s).eui = s.eui := rfl
@[simp] theorem txRequest_session (k : TxKind) (n : Nat) (m : TxMode) (a : Bool) (t : Word) (s : State) :
    (txRequest k n m a t s).session = s.session := rfl
@[simp] theorem txRequest_round (k : TxKind) (n : Nat) (m : TxMode) (a : Bool) (t : Word) (s : State) :
    (txRequest k n m a t s).round = s.round := rfl
@[simp] theorem txRequest_seq (k : TxKind) (n : Nat) (m : TxMode) (a : Bool) (t : Word) (s : State) :
    (txRequest k n m a t s).seq = s.seq := rfl
@[simp] theorem txRequest_timing (k : TxKind) (n : Nat) (m : TxMode) (a : Bool) (t : Word) (s : State) :
    (txRequest k n m a t s).timing = s.timing := rfl
@[simp] theorem txRequest_distLimit (k : TxKind) (n : Nat) (m : TxMode) (a : Bool) (t : Word) (s : State) :
    (txRequest k n m a t s).distLimit = s.distLimit := rfl
@[simp] theorem txRequest_lastAbort (k : TxKind) (n : Nat) (m : TxMode) (a : Bool) (t : Word) (s : State) :
    (txRequest k n m a t s).lastAbort = s.lastAbort := rfl
@[simp] theorem txRequest_registry (k : TxKind) (n : Nat) (m : TxMode) (a : Bool) (t : Word) (s : State) :
    (txRequest k n m a t s).registry = s.registry := rfl
@[simp] theorem txRequest_stamps (k : TxKind) (n : Nat) (m : TxMode) (a : Bool) (t : Word) (s : State) :
    (txRequest k n m a t s).stamps = s.stamps := rfl
@[simp] theorem txRequest_mem (k : TxKind) (n : Nat) (m : TxMode) (a : Bool) (t : Word) (s : State) :
    (txRequest k n m a t s).mem = s.mem := rfl
@[simp] theorem txRequest_inlen (k : TxKind) (n : Nat) (m : TxMode) (a : Bool) (t : Word) (s : State) :
    (txRequest k n m a t s).inlen = s.inlen := rfl
@[simp] theorem txRequest_clen (k : TxKind) (n : Nat) (m : TxMode) (a : Bool) (t : Word) (s : State) :
    (txRequest k n m a t s).clen = s.clen := rfl
@[simp] theorem txRequest_out (k : TxKind) (n : Nat) (m : TxMode) (a : Bool) (t : Word) (s : State) :
    (txRequest k n m a t s).out = s.out ++ [.tx (cbufBytes s.mem n) m a t] := rfl
@[simp] theorem txRequest_readData (k : TxKind) (n : Nat) (m : TxMode) (a : Bool) (t : Word) (s : State) :
    (txRequest k n m a t s).readData = s.readData := rfl
@[simp] theorem txRequest_schedule (k : TxKind) (n : Nat) (m : TxMode) (a : Bool) (t : Word) (s : State) :
    (txRequest k n m a t s).schedule = s.schedule := rfl
@[simp] theorem txRequest_envTick (k : TxKind) (n : Nat) (m : TxMode) (a : Bool) (t : Word) (s : State) :
    (txRequest k n m a t s).envTick = s.envTick := rfl
@[simp] theorem txRequest_draws (k : TxKind) (n : Nat) (m : TxMode) (a : Bool) (t : Word) (s : State) :
    (txRequest k n m a t s).draws = s.draws := rfl
@[simp] theorem txRequest_outBefore (k : TxKind) (n : Nat) (m : TxMode) (a : Bool) (t : Word) (s : State) :
    (txRequest k n m a t s).outBefore = s.outBefore := rfl

/-! ### storeC -/

@[simp] theorem storeC_params (f : List Byte) (s : State) :
    (storeC f s).params = s.params := rfl
@[simp] theorem storeC_enable (f : List Byte) (s : State) :
    (storeC f s).enable = s.enable := rfl
@[simp] theorem storeC_role (f : List Byte) (s : State) :
    (storeC f s).role = s.role := rfl
@[simp] theorem storeC_status (f : List Byte) (s : State) :
    (storeC f s).status = s.status := rfl
@[simp] theorem storeC_irqEn (f : List Byte) (s : State) :
    (storeC f s).irqEn = s.irqEn := rfl
@[simp] theorem storeC_cmdStatus (f : List Byte) (s : State) :
    (storeC f s).cmdStatus = s.cmdStatus := rfl
@[simp] theorem storeC_args (f : List Byte) (s : State) :
    (storeC f s).args = s.args := rfl
@[simp] theorem storeC_cfgOut (f : List Byte) (s : State) :
    (storeC f s).cfgOut = s.cfgOut := rfl
@[simp] theorem storeC_eui (f : List Byte) (s : State) :
    (storeC f s).eui = s.eui := rfl
@[simp] theorem storeC_session (f : List Byte) (s : State) :
    (storeC f s).session = s.session := rfl
@[simp] theorem storeC_round (f : List Byte) (s : State) :
    (storeC f s).round = s.round := rfl
@[simp] theorem storeC_seq (f : List Byte) (s : State) :
    (storeC f s).seq = s.seq := rfl
@[simp] theorem storeC_timing (f : List Byte) (s : State) :
    (storeC f s).timing = s.timing := rfl
@[simp] theorem storeC_distLimit (f : List Byte) (s : State) :
    (storeC f s).distLimit = s.distLimit := rfl
@[simp] theorem storeC_lastAbort (f : List Byte) (s : State) :
    (storeC f s).lastAbort = s.lastAbort := rfl
@[simp] theorem storeC_registry (f : List Byte) (s : State) :
    (storeC f s).registry = s.registry := rfl
@[simp] theorem storeC_stamps (f : List Byte) (s : State) :
    (storeC f s).stamps = s.stamps := rfl
@[simp] theorem storeC_mem (f : List Byte) (s : State) :
    (storeC f s).mem = s.mem.store cbufBase bufSize f := rfl
@[simp] theorem storeC_inlen (f : List Byte) (s : State) :
    (storeC f s).inlen = s.inlen := rfl
@[simp] theorem storeC_clen (f : List Byte) (s : State) :
    (storeC f s).clen = BitVec.ofNat 8 f.length := rfl
@[simp] theorem storeC_out (f : List Byte) (s : State) :
    (storeC f s).out = s.out := rfl
@[simp] theorem storeC_readData (f : List Byte) (s : State) :
    (storeC f s).readData = s.readData := rfl
@[simp] theorem storeC_schedule (f : List Byte) (s : State) :
    (storeC f s).schedule = s.schedule := rfl
@[simp] theorem storeC_envTick (f : List Byte) (s : State) :
    (storeC f s).envTick = s.envTick := rfl
@[simp] theorem storeC_draws (f : List Byte) (s : State) :
    (storeC f s).draws = s.draws := rfl
@[simp] theorem storeC_outBefore (f : List Byte) (s : State) :
    (storeC f s).outBefore = s.outBefore := rfl

/-! ### roundReset -/

@[simp] theorem roundReset_params (s : State) :
    (roundReset s).params = s.params := rfl
@[simp] theorem roundReset_enable (s : State) :
    (roundReset s).enable = s.enable := rfl
@[simp] theorem roundReset_role (s : State) :
    (roundReset s).role = s.role := rfl
@[simp] theorem roundReset_status (s : State) :
    (roundReset s).status = { s.status with respPhase := .poll } := rfl
@[simp] theorem roundReset_irqEn (s : State) :
    (roundReset s).irqEn = s.irqEn := rfl
@[simp] theorem roundReset_cmdStatus (s : State) :
    (roundReset s).cmdStatus = s.cmdStatus := rfl
@[simp] theorem roundReset_args (s : State) :
    (roundReset s).args = s.args := rfl
@[simp] theorem roundReset_cfgOut (s : State) :
    (roundReset s).cfgOut = s.cfgOut := rfl
@[simp] theorem roundReset_eui (s : State) :
    (roundReset s).eui = s.eui := rfl
@[simp] theorem roundReset_session (s : State) :
    (roundReset s).session = s.session := rfl
@[simp] theorem roundReset_round (s : State) :
    (roundReset s).round = Round.cleared s.params.cap := rfl
@[simp] theorem roundReset_seq (s : State) :
    (roundReset s).seq = s.seq := rfl
@[simp] theorem roundReset_timing (s : State) :
    (roundReset s).timing = s.timing := rfl
@[simp] theorem roundReset_distLimit (s : State) :
    (roundReset s).distLimit = s.distLimit := rfl
@[simp] theorem roundReset_lastAbort (s : State) :
    (roundReset s).lastAbort = s.lastAbort := rfl
@[simp] theorem roundReset_registry (s : State) :
    (roundReset s).registry = s.registry := rfl
@[simp] theorem roundReset_stamps (s : State) :
    (roundReset s).stamps = s.stamps := rfl
@[simp] theorem roundReset_mem (s : State) :
    (roundReset s).mem = s.mem := rfl
@[simp] theorem roundReset_inlen (s : State) :
    (roundReset s).inlen = s.inlen := rfl
@[simp] theorem roundReset_clen (s : State) :
    (roundReset s).clen = s.clen := rfl
@[simp] theorem roundReset_out (s : State) :
    (roundReset s).out = s.out := rfl
@[simp] theorem roundReset_readData (s : State) :
    (roundReset s).readData = s.readData := rfl
@[simp] theorem roundReset_schedule (s : State) :
    (roundReset s).schedule = s.schedule := rfl
@[simp] theorem roundReset_envTick (s : State) :
    (roundReset s).envTick = s.envTick := rfl
@[simp] theorem roundReset_draws (s : State) :
    (roundReset s).draws = s.draws := rfl
@[simp] theorem roundReset_outBefore (s : State) :
    (roundReset s).outBefore = s.outBefore := rfl

/-! ### recordAbort -/

@[simp] theorem recordAbort_params (c : AbortCause) (p : Option Byte) (s : State) :
    (recordAbort c p s).params = s.params := rfl
@[simp] theorem recordAbort_enable (c : AbortCause) (p : Option Byte) (s : State) :
    (recordAbort c p s).enable = s.enable := rfl
@[simp] theorem recordAbort_role (c : AbortCause) (p : Option Byte) (s : State) :
    (recordAbort c p s).role = s.role := rfl
@[simp] theorem recordAbort_status (c : AbortCause) (p : Option Byte) (s : State) :
    (recordAbort c p s).status = { s.status with roundFail := true } := rfl
@[simp] theorem recordAbort_irqEn (c : AbortCause) (p : Option Byte) (s : State) :
    (recordAbort c p s).irqEn = s.irqEn := rfl
@[simp] theorem recordAbort_cmdStatus (c : AbortCause) (p : Option Byte) (s : State) :
    (recordAbort c p s).cmdStatus = s.cmdStatus := rfl
@[simp] theorem recordAbort_args (c : AbortCause) (p : Option Byte) (s : State) :
    (recordAbort c p s).args = s.args := rfl
@[simp] theorem recordAbort_cfgOut (c : AbortCause) (p : Option Byte) (s : State) :
    (recordAbort c p s).cfgOut = s.cfgOut := rfl
@[simp] theorem recordAbort_eui (c : AbortCause) (p : Option Byte) (s : State) :
    (recordAbort c p s).eui = s.eui := rfl
@[simp] theorem recordAbort_session (c : AbortCause) (p : Option Byte) (s : State) :
    (recordAbort c p s).session = s.session := rfl
@[simp] theorem recordAbort_round (c : AbortCause) (p : Option Byte) (s : State) :
    (recordAbort c p s).round = s.round := rfl
@[simp] theorem recordAbort_seq (c : AbortCause) (p : Option Byte) (s : State) :
    (recordAbort c p s).seq = s.seq := rfl
@[simp] theorem recordAbort_timing (c : AbortCause) (p : Option Byte) (s : State) :
    (recordAbort c p s).timing = s.timing := rfl
@[simp] theorem recordAbort_distLimit (c : AbortCause) (p : Option Byte) (s : State) :
    (recordAbort c p s).distLimit = s.distLimit := rfl
@[simp] theorem recordAbort_lastAbort (c : AbortCause) (p : Option Byte) (s : State) :
    (recordAbort c p s).lastAbort = { cause := c, evictId := p.getD 0, evictV := p.isSome } := rfl
@[simp] theorem recordAbort_registry (c : AbortCause) (p : Option Byte) (s : State) :
    (recordAbort c p s).registry = s.registry := rfl
@[simp] theorem recordAbort_stamps (c : AbortCause) (p : Option Byte) (s : State) :
    (recordAbort c p s).stamps = s.stamps := rfl
@[simp] theorem recordAbort_mem (c : AbortCause) (p : Option Byte) (s : State) :
    (recordAbort c p s).mem = s.mem := rfl
@[simp] theorem recordAbort_inlen (c : AbortCause) (p : Option Byte) (s : State) :
    (recordAbort c p s).inlen = s.inlen := rfl
@[simp] theorem recordAbort_clen (c : AbortCause) (p : Option Byte) (s : State) :
    (recordAbort c p s).clen = s.clen := rfl
@[simp] theorem recordAbort_out (c : AbortCause) (p : Option Byte) (s : State) :
    (recordAbort c p s).out = s.out := rfl
@[simp] theorem recordAbort_readData (c : AbortCause) (p : Option Byte) (s : State) :
    (recordAbort c p s).readData = s.readData := rfl
@[simp] theorem recordAbort_schedule (c : AbortCause) (p : Option Byte) (s : State) :
    (recordAbort c p s).schedule = s.schedule := rfl
@[simp] theorem recordAbort_envTick (c : AbortCause) (p : Option Byte) (s : State) :
    (recordAbort c p s).envTick = s.envTick := rfl
@[simp] theorem recordAbort_draws (c : AbortCause) (p : Option Byte) (s : State) :
    (recordAbort c p s).draws = s.draws := rfl
@[simp] theorem recordAbort_outBefore (c : AbortCause) (p : Option Byte) (s : State) :
    (recordAbort c p s).outBefore = s.outBefore := rfl

/-! ### abort -/

@[simp] theorem abort_params (c : AbortCause) (p : Option Byte) (s : State) :
    (abort c p s).params = s.params := by unfold abort; split <;> rfl
@[simp] theorem abort_enable (c : AbortCause) (p : Option Byte) (s : State) :
    (abort c p s).enable = s.enable := by unfold abort; split <;> rfl
@[simp] theorem abort_role (c : AbortCause) (p : Option Byte) (s : State) :
    (abort c p s).role = s.role := by unfold abort; split <;> rfl
@[simp] theorem abort_status (c : AbortCause) (p : Option Byte) (s : State) :
    (abort c p s).status = { s.status with
        respPhase := .poll, roundFail := true
        coordState := if s.role = .coord then .idle else s.status.coordState } := by unfold abort; split <;> rfl
@[simp] theorem abort_irqEn (c : AbortCause) (p : Option Byte) (s : State) :
    (abort c p s).irqEn = s.irqEn := by unfold abort; split <;> rfl
@[simp] theorem abort_cmdStatus (c : AbortCause) (p : Option Byte) (s : State) :
    (abort c p s).cmdStatus = s.cmdStatus := by unfold abort; split <;> rfl
@[simp] theorem abort_args (c : AbortCause) (p : Option Byte) (s : State) :
    (abort c p s).args = s.args := by unfold abort; split <;> rfl
@[simp] theorem abort_cfgOut (c : AbortCause) (p : Option Byte) (s : State) :
    (abort c p s).cfgOut = s.cfgOut := by unfold abort; split <;> rfl
@[simp] theorem abort_eui (c : AbortCause) (p : Option Byte) (s : State) :
    (abort c p s).eui = s.eui := by unfold abort; split <;> rfl
@[simp] theorem abort_session (c : AbortCause) (p : Option Byte) (s : State) :
    (abort c p s).session = s.session := by unfold abort; split <;> rfl
@[simp] theorem abort_round (c : AbortCause) (p : Option Byte) (s : State) :
    (abort c p s).round = Round.cleared s.params.cap := by unfold abort; split <;> rfl
@[simp] theorem abort_seq (c : AbortCause) (p : Option Byte) (s : State) :
    (abort c p s).seq = s.seq := by unfold abort; split <;> rfl
@[simp] theorem abort_timing (c : AbortCause) (p : Option Byte) (s : State) :
    (abort c p s).timing = s.timing := by unfold abort; split <;> rfl
@[simp] theorem abort_distLimit (c : AbortCause) (p : Option Byte) (s : State) :
    (abort c p s).distLimit = s.distLimit := by unfold abort; split <;> rfl
@[simp] theorem abort_lastAbort (c : AbortCause) (p : Option Byte) (s : State) :
    (abort c p s).lastAbort = { cause := c, evictId := p.getD 0, evictV := p.isSome } := by unfold abort; split <;> rfl
@[simp] theorem abort_registry (c : AbortCause) (p : Option Byte) (s : State) :
    (abort c p s).registry = s.registry := by unfold abort; split <;> rfl
@[simp] theorem abort_stamps (c : AbortCause) (p : Option Byte) (s : State) :
    (abort c p s).stamps = s.stamps := by unfold abort; split <;> rfl
@[simp] theorem abort_mem (c : AbortCause) (p : Option Byte) (s : State) :
    (abort c p s).mem = s.mem := by unfold abort; split <;> rfl
@[simp] theorem abort_inlen (c : AbortCause) (p : Option Byte) (s : State) :
    (abort c p s).inlen = s.inlen := by unfold abort; split <;> rfl
@[simp] theorem abort_clen (c : AbortCause) (p : Option Byte) (s : State) :
    (abort c p s).clen = s.clen := by unfold abort; split <;> rfl
@[simp] theorem abort_out (c : AbortCause) (p : Option Byte) (s : State) :
    (abort c p s).out = s.out := by unfold abort; split <;> rfl
@[simp] theorem abort_readData (c : AbortCause) (p : Option Byte) (s : State) :
    (abort c p s).readData = s.readData := by unfold abort; split <;> rfl
@[simp] theorem abort_schedule (c : AbortCause) (p : Option Byte) (s : State) :
    (abort c p s).schedule = s.schedule := by unfold abort; split <;> rfl
@[simp] theorem abort_envTick (c : AbortCause) (p : Option Byte) (s : State) :
    (abort c p s).envTick = s.envTick := by unfold abort; split <;> rfl
@[simp] theorem abort_draws (c : AbortCause) (p : Option Byte) (s : State) :
    (abort c p s).draws = s.draws := by unfold abort; split <;> rfl
@[simp] theorem abort_outBefore (c : AbortCause) (p : Option Byte) (s : State) :
    (abort c p s).outBefore = s.outBefore := by unfold abort; split <;> rfl

/-! ### deriveSession -/

@[simp] theorem deriveSession_params (own init n : Byte) (s : State) :
    (deriveSession own init n s).params = s.params := rfl
@[simp] theorem deriveSession_enable (own init n : Byte) (s : State) :
    (deriveSession own init n s).enable = s.enable := rfl
@[simp] theorem deriveSession_role (own init n : Byte) (s : State) :
    (deriveSession own init n s).role = s.role := rfl
@[simp] theorem deriveSession_status (own init n : Byte) (s : State) :
    (deriveSession own init n s).status = { s.status with respPhase := .poll } := rfl
@[simp] theorem deriveSession_irqEn (own init n : Byte) (s : State) :
    (deriveSession own init n s).irqEn = s.irqEn := rfl
@[simp] theorem deriveSession_cmdStatus (own init n : Byte) (s : State) :
    (deriveSession own init n s).cmdStatus = s.cmdStatus := rfl
@[simp] theorem deriveSession_args (own init n : Byte) (s : State) :
    (deriveSession own init n s).args = s.args := rfl
@[simp] theorem deriveSession_cfgOut (own init n : Byte) (s : State) :
    (deriveSession own init n s).cfgOut = s.cfgOut := rfl
@[simp] theorem deriveSession_eui (own init n : Byte) (s : State) :
    (deriveSession own init n s).eui = s.eui := rfl
@[simp] theorem deriveSession_session (own init n : Byte) (s : State) :
    (deriveSession own init n s).session =
      { ownId := own, initId := init, nodeCount := n, waitPos := (own - init) / 4,
        targets := (targetOrder own init n).take s.params.cap } := rfl
@[simp] theorem deriveSession_round (own init n : Byte) (s : State) :
    (deriveSession own init n s).round = Round.cleared s.params.cap := rfl
@[simp] theorem deriveSession_seq (own init n : Byte) (s : State) :
    (deriveSession own init n s).seq = s.seq := rfl
@[simp] theorem deriveSession_timing (own init n : Byte) (s : State) :
    (deriveSession own init n s).timing = s.timing := rfl
@[simp] theorem deriveSession_distLimit (own init n : Byte) (s : State) :
    (deriveSession own init n s).distLimit = s.distLimit := rfl
@[simp] theorem deriveSession_lastAbort (own init n : Byte) (s : State) :
    (deriveSession own init n s).lastAbort = s.lastAbort := rfl
@[simp] theorem deriveSession_registry (own init n : Byte) (s : State) :
    (deriveSession own init n s).registry = s.registry := rfl
@[simp] theorem deriveSession_stamps (own init n : Byte) (s : State) :
    (deriveSession own init n s).stamps = s.stamps := rfl
@[simp] theorem deriveSession_mem (own init n : Byte) (s : State) :
    (deriveSession own init n s).mem = s.mem := rfl
@[simp] theorem deriveSession_inlen (own init n : Byte) (s : State) :
    (deriveSession own init n s).inlen = s.inlen := rfl
@[simp] theorem deriveSession_clen (own init n : Byte) (s : State) :
    (deriveSession own init n s).clen = s.clen := rfl
@[simp] theorem deriveSession_out (own init n : Byte) (s : State) :
    (deriveSession own init n s).out = s.out := rfl
@[simp] theorem deriveSession_readData (own init n : Byte) (s : State) :
    (deriveSession own init n s).readData = s.readData := rfl
@[simp] theorem deriveSession_schedule (own init n : Byte) (s : State) :
    (deriveSession own init n s).schedule = s.schedule := rfl
@[simp] theorem deriveSession_envTick (own init n : Byte) (s : State) :
    (deriveSession own init n s).envTick = s.envTick := rfl
@[simp] theorem deriveSession_draws (own init n : Byte) (s : State) :
    (deriveSession own init n s).draws = s.draws := rfl
@[simp] theorem deriveSession_outBefore (own init n : Byte) (s : State) :
    (deriveSession own init n s).outBefore = s.outBefore := rfl

/-! ### take -/

@[simp] theorem take_params (s : State) :
    (take s).params = s.params := by unfold take; split <;> rfl
@[simp] theorem take_enable (s : State) :
    (take s).enable = s.enable := by unfold take; split <;> rfl
@[simp] theorem take_role (s : State) :
    (take s).role = s.role := by unfold take; split <;> rfl
@[simp] theorem take_status (s : State) :
    (take s).status = { s.status with msgPending := false } := by unfold take; split <;> rfl
@[simp] theorem take_irqEn (s : State) :
    (take s).irqEn = s.irqEn := by unfold take; split <;> rfl
@[simp] theorem take_cmdStatus (s : State) :
    (take s).cmdStatus = s.cmdStatus := by unfold take; split <;> rfl
@[simp] theorem take_args (s : State) :
    (take s).args = s.args := by unfold take; split <;> rfl
@[simp] theorem take_cfgOut (s : State) :
    (take s).cfgOut = s.cfgOut := by unfold take; split <;> rfl
@[simp] theorem take_eui (s : State) :
    (take s).eui = s.eui := by unfold take; split <;> rfl
@[simp] theorem take_session (s : State) :
    (take s).session = s.session := by unfold take; split <;> rfl
@[simp] theorem take_round (s : State) :
    (take s).round = s.round := by unfold take; split <;> rfl
@[simp] theorem take_seq (s : State) :
    (take s).seq = s.seq := by unfold take; split <;> rfl
@[simp] theorem take_timing (s : State) :
    (take s).timing = s.timing := by unfold take; split <;> rfl
@[simp] theorem take_distLimit (s : State) :
    (take s).distLimit = s.distLimit := by unfold take; split <;> rfl
@[simp] theorem take_lastAbort (s : State) :
    (take s).lastAbort = s.lastAbort := by unfold take; split <;> rfl
@[simp] theorem take_registry (s : State) :
    (take s).registry = s.registry := by unfold take; split <;> rfl
@[simp] theorem take_stamps (s : State) :
    (take s).stamps = s.stamps := by unfold take; split <;> rfl
theorem take_mem (s : State) :
    (take s).mem = if inlenAccepted s then s.mem.store cbufBase bufSize (inbufBytes s.mem s.inlen.toNat) else s.mem := by unfold take; split <;> rfl
@[simp] theorem take_inlen (s : State) :
    (take s).inlen = s.inlen := by unfold take; split <;> rfl
theorem take_clen (s : State) :
    (take s).clen = if inlenAccepted s then BitVec.ofNat 8 (inbufBytes s.mem s.inlen.toNat).length else s.clen := by unfold take; split <;> rfl
@[simp] theorem take_out (s : State) :
    (take s).out = s.out := by unfold take; split <;> rfl
@[simp] theorem take_readData (s : State) :
    (take s).readData = s.readData := by unfold take; split <;> rfl
@[simp] theorem take_schedule (s : State) :
    (take s).schedule = s.schedule := by unfold take; split <;> rfl
@[simp] theorem take_envTick (s : State) :
    (take s).envTick = s.envTick := by unfold take; split <;> rfl
@[simp] theorem take_draws (s : State) :
    (take s).draws = s.draws := by unfold take; split <;> rfl
@[simp] theorem take_outBefore (s : State) :
    (take s).outBefore = s.outBefore := by unfold take; split <;> rfl

/-! ### regAdd -/

@[simp] theorem regAdd_params (x : ExtAddr) (s : State) :
    (regAdd x s).params = s.params := by unfold regAdd; split <;> rfl
@[simp] theorem regAdd_enable (x : ExtAddr) (s : State) :
    (regAdd x s).enable = s.enable := by unfold regAdd; split <;> rfl
@[simp] theorem regAdd_role (x : ExtAddr) (s : State) :
    (regAdd x s).role = s.role := by unfold regAdd; split <;> rfl
@[simp] theorem regAdd_status (x : ExtAddr) (s : State) :
    (regAdd x s).status = s.status := by unfold regAdd; split <;> rfl
@[simp] theorem regAdd_irqEn (x : ExtAddr) (s : State) :
    (regAdd x s).irqEn = s.irqEn := by unfold regAdd; split <;> rfl
@[simp] theorem regAdd_cmdStatus (x : ExtAddr) (s : State) :
    (regAdd x s).cmdStatus = s.cmdStatus := by unfold regAdd; split <;> rfl
@[simp] theorem regAdd_args (x : ExtAddr) (s : State) :
    (regAdd x s).args = s.args := by unfold regAdd; split <;> rfl
@[simp] theorem regAdd_cfgOut (x : ExtAddr) (s : State) :
    (regAdd x s).cfgOut = s.cfgOut := by unfold regAdd; split <;> rfl
@[simp] theorem regAdd_eui (x : ExtAddr) (s : State) :
    (regAdd x s).eui = s.eui := by unfold regAdd; split <;> rfl
@[simp] theorem regAdd_session (x : ExtAddr) (s : State) :
    (regAdd x s).session = s.session := by unfold regAdd; split <;> rfl
@[simp] theorem regAdd_round (x : ExtAddr) (s : State) :
    (regAdd x s).round = s.round := by unfold regAdd; split <;> rfl
@[simp] theorem regAdd_seq (x : ExtAddr) (s : State) :
    (regAdd x s).seq = s.seq := by unfold regAdd; split <;> rfl
@[simp] theorem regAdd_timing (x : ExtAddr) (s : State) :
    (regAdd x s).timing = s.timing := by unfold regAdd; split <;> rfl
@[simp] theorem regAdd_distLimit (x : ExtAddr) (s : State) :
    (regAdd x s).distLimit = s.distLimit := by unfold regAdd; split <;> rfl
@[simp] theorem regAdd_lastAbort (x : ExtAddr) (s : State) :
    (regAdd x s).lastAbort = s.lastAbort := by unfold regAdd; split <;> rfl
@[simp] theorem regAdd_registry (x : ExtAddr) (s : State) :
    (regAdd x s).registry = s.registry ++ ((regAddResult x s).map fun d => ({ addr := x, id := d, dist := 0 } : Peer)).toList := by unfold regAdd; split <;> simp_all
@[simp] theorem regAdd_stamps (x : ExtAddr) (s : State) :
    (regAdd x s).stamps = s.stamps := by unfold regAdd; split <;> rfl
@[simp] theorem regAdd_mem (x : ExtAddr) (s : State) :
    (regAdd x s).mem = s.mem := by unfold regAdd; split <;> rfl
@[simp] theorem regAdd_inlen (x : ExtAddr) (s : State) :
    (regAdd x s).inlen = s.inlen := by unfold regAdd; split <;> rfl
@[simp] theorem regAdd_clen (x : ExtAddr) (s : State) :
    (regAdd x s).clen = s.clen := by unfold regAdd; split <;> rfl
@[simp] theorem regAdd_out (x : ExtAddr) (s : State) :
    (regAdd x s).out = s.out := by unfold regAdd; split <;> rfl
@[simp] theorem regAdd_readData (x : ExtAddr) (s : State) :
    (regAdd x s).readData = s.readData := by unfold regAdd; split <;> rfl
@[simp] theorem regAdd_schedule (x : ExtAddr) (s : State) :
    (regAdd x s).schedule = s.schedule := by unfold regAdd; split <;> rfl
@[simp] theorem regAdd_envTick (x : ExtAddr) (s : State) :
    (regAdd x s).envTick = s.envTick := by unfold regAdd; split <;> rfl
@[simp] theorem regAdd_draws (x : ExtAddr) (s : State) :
    (regAdd x s).draws = s.draws := by unfold regAdd; split <;> rfl
@[simp] theorem regAdd_outBefore (x : ExtAddr) (s : State) :
    (regAdd x s).outBefore = s.outBefore := by unfold regAdd; split <;> rfl

/-! ### regRemove -/

@[simp] theorem regRemove_params (d : Byte) (s : State) :
    (regRemove d s).params = s.params := by unfold regRemove; split <;> rfl
@[simp] theorem regRemove_enable (d : Byte) (s : State) :
    (regRemove d s).enable = s.enable := by unfold regRemove; split <;> rfl
@[simp] theorem regRemove_role (d : Byte) (s : State) :
    (regRemove d s).role = s.role := by unfold regRemove; split <;> rfl
@[simp] theorem regRemove_status (d : Byte) (s : State) :
    (regRemove d s).status = s.status := by unfold regRemove; split <;> rfl
@[simp] theorem regRemove_irqEn (d : Byte) (s : State) :
    (regRemove d s).irqEn = s.irqEn := by unfold regRemove; split <;> rfl
@[simp] theorem regRemove_cmdStatus (d : Byte) (s : State) :
    (regRemove d s).cmdStatus = s.cmdStatus := by unfold regRemove; split <;> rfl
@[simp] theorem regRemove_args (d : Byte) (s : State) :
    (regRemove d s).args = s.args := by unfold regRemove; split <;> rfl
@[simp] theorem regRemove_cfgOut (d : Byte) (s : State) :
    (regRemove d s).cfgOut = s.cfgOut := by unfold regRemove; split <;> rfl
@[simp] theorem regRemove_eui (d : Byte) (s : State) :
    (regRemove d s).eui = s.eui := by unfold regRemove; split <;> rfl
@[simp] theorem regRemove_session (d : Byte) (s : State) :
    (regRemove d s).session = s.session := by unfold regRemove; split <;> rfl
@[simp] theorem regRemove_round (d : Byte) (s : State) :
    (regRemove d s).round = s.round := by unfold regRemove; split <;> rfl
@[simp] theorem regRemove_seq (d : Byte) (s : State) :
    (regRemove d s).seq = s.seq := by unfold regRemove; split <;> rfl
@[simp] theorem regRemove_timing (d : Byte) (s : State) :
    (regRemove d s).timing = s.timing := by unfold regRemove; split <;> rfl
@[simp] theorem regRemove_distLimit (d : Byte) (s : State) :
    (regRemove d s).distLimit = s.distLimit := by unfold regRemove; split <;> rfl
@[simp] theorem regRemove_lastAbort (d : Byte) (s : State) :
    (regRemove d s).lastAbort = s.lastAbort := by unfold regRemove; split <;> rfl
@[simp] theorem regRemove_registry (d : Byte) (s : State) :
    (regRemove d s).registry = match findId d s with
      | none => s.registry
      | some k => s.registry.eraseIdx k := by unfold regRemove; split <;> simp_all
@[simp] theorem regRemove_stamps (d : Byte) (s : State) :
    (regRemove d s).stamps = s.stamps := by unfold regRemove; split <;> rfl
@[simp] theorem regRemove_mem (d : Byte) (s : State) :
    (regRemove d s).mem = s.mem := by unfold regRemove; split <;> rfl
@[simp] theorem regRemove_inlen (d : Byte) (s : State) :
    (regRemove d s).inlen = s.inlen := by unfold regRemove; split <;> rfl
@[simp] theorem regRemove_clen (d : Byte) (s : State) :
    (regRemove d s).clen = s.clen := by unfold regRemove; split <;> rfl
@[simp] theorem regRemove_out (d : Byte) (s : State) :
    (regRemove d s).out = s.out := by unfold regRemove; split <;> rfl
@[simp] theorem regRemove_readData (d : Byte) (s : State) :
    (regRemove d s).readData = s.readData := by unfold regRemove; split <;> rfl
@[simp] theorem regRemove_schedule (d : Byte) (s : State) :
    (regRemove d s).schedule = s.schedule := by unfold regRemove; split <;> rfl
@[simp] theorem regRemove_envTick (d : Byte) (s : State) :
    (regRemove d s).envTick = s.envTick := by unfold regRemove; split <;> rfl
@[simp] theorem regRemove_draws (d : Byte) (s : State) :
    (regRemove d s).draws = s.draws := by unfold regRemove; split <;> rfl
@[simp] theorem regRemove_outBefore (d : Byte) (s : State) :
    (regRemove d s).outBefore = s.outBefore := by unfold regRemove; split <;> rfl

/-! ### regSetId -/

@[simp] theorem regSetId_params (k : Nat) (d : Byte) (s : State) :
    (regSetId k d s).params = s.params := rfl
@[simp] theorem regSetId_enable (k : Nat) (d : Byte) (s : State) :
    (regSetId k d s).enable = s.enable := rfl
@[simp] theorem regSetId_role (k : Nat) (d : Byte) (s : State) :
    (regSetId k d s).role = s.role := rfl
@[simp] theorem regSetId_status (k : Nat) (d : Byte) (s : State) :
    (regSetId k d s).status = s.status := rfl
@[simp] theorem regSetId_irqEn (k : Nat) (d : Byte) (s : State) :
    (regSetId k d s).irqEn = s.irqEn := rfl
@[simp] theorem regSetId_cmdStatus (k : Nat) (d : Byte) (s : State) :
    (regSetId k d s).cmdStatus = s.cmdStatus := rfl
@[simp] theorem regSetId_args (k : Nat) (d : Byte) (s : State) :
    (regSetId k d s).args = s.args := rfl
@[simp] theorem regSetId_cfgOut (k : Nat) (d : Byte) (s : State) :
    (regSetId k d s).cfgOut = s.cfgOut := rfl
@[simp] theorem regSetId_eui (k : Nat) (d : Byte) (s : State) :
    (regSetId k d s).eui = s.eui := rfl
@[simp] theorem regSetId_session (k : Nat) (d : Byte) (s : State) :
    (regSetId k d s).session = s.session := rfl
@[simp] theorem regSetId_round (k : Nat) (d : Byte) (s : State) :
    (regSetId k d s).round = s.round := rfl
@[simp] theorem regSetId_seq (k : Nat) (d : Byte) (s : State) :
    (regSetId k d s).seq = s.seq := rfl
@[simp] theorem regSetId_timing (k : Nat) (d : Byte) (s : State) :
    (regSetId k d s).timing = s.timing := rfl
@[simp] theorem regSetId_distLimit (k : Nat) (d : Byte) (s : State) :
    (regSetId k d s).distLimit = s.distLimit := rfl
@[simp] theorem regSetId_lastAbort (k : Nat) (d : Byte) (s : State) :
    (regSetId k d s).lastAbort = s.lastAbort := rfl
@[simp] theorem regSetId_registry (k : Nat) (d : Byte) (s : State) :
    (regSetId k d s).registry = s.registry.modify k (fun p => { p with id := d }) := rfl
@[simp] theorem regSetId_stamps (k : Nat) (d : Byte) (s : State) :
    (regSetId k d s).stamps = s.stamps := rfl
@[simp] theorem regSetId_mem (k : Nat) (d : Byte) (s : State) :
    (regSetId k d s).mem = s.mem := rfl
@[simp] theorem regSetId_inlen (k : Nat) (d : Byte) (s : State) :
    (regSetId k d s).inlen = s.inlen := rfl
@[simp] theorem regSetId_clen (k : Nat) (d : Byte) (s : State) :
    (regSetId k d s).clen = s.clen := rfl
@[simp] theorem regSetId_out (k : Nat) (d : Byte) (s : State) :
    (regSetId k d s).out = s.out := rfl
@[simp] theorem regSetId_readData (k : Nat) (d : Byte) (s : State) :
    (regSetId k d s).readData = s.readData := rfl
@[simp] theorem regSetId_schedule (k : Nat) (d : Byte) (s : State) :
    (regSetId k d s).schedule = s.schedule := rfl
@[simp] theorem regSetId_envTick (k : Nat) (d : Byte) (s : State) :
    (regSetId k d s).envTick = s.envTick := rfl
@[simp] theorem regSetId_draws (k : Nat) (d : Byte) (s : State) :
    (regSetId k d s).draws = s.draws := rfl
@[simp] theorem regSetId_outBefore (k : Nat) (d : Byte) (s : State) :
    (regSetId k d s).outBefore = s.outBefore := rfl

/-! ### regSetDist -/

@[simp] theorem regSetDist_params (d : Byte) (v : Word) (s : State) :
    (regSetDist d v s).params = s.params := by unfold regSetDist; split <;> rfl
@[simp] theorem regSetDist_enable (d : Byte) (v : Word) (s : State) :
    (regSetDist d v s).enable = s.enable := by unfold regSetDist; split <;> rfl
@[simp] theorem regSetDist_role (d : Byte) (v : Word) (s : State) :
    (regSetDist d v s).role = s.role := by unfold regSetDist; split <;> rfl
@[simp] theorem regSetDist_status (d : Byte) (v : Word) (s : State) :
    (regSetDist d v s).status = s.status := by unfold regSetDist; split <;> rfl
@[simp] theorem regSetDist_irqEn (d : Byte) (v : Word) (s : State) :
    (regSetDist d v s).irqEn = s.irqEn := by unfold regSetDist; split <;> rfl
@[simp] theorem regSetDist_cmdStatus (d : Byte) (v : Word) (s : State) :
    (regSetDist d v s).cmdStatus = s.cmdStatus := by unfold regSetDist; split <;> rfl
@[simp] theorem regSetDist_args (d : Byte) (v : Word) (s : State) :
    (regSetDist d v s).args = s.args := by unfold regSetDist; split <;> rfl
@[simp] theorem regSetDist_cfgOut (d : Byte) (v : Word) (s : State) :
    (regSetDist d v s).cfgOut = s.cfgOut := by unfold regSetDist; split <;> rfl
@[simp] theorem regSetDist_eui (d : Byte) (v : Word) (s : State) :
    (regSetDist d v s).eui = s.eui := by unfold regSetDist; split <;> rfl
@[simp] theorem regSetDist_session (d : Byte) (v : Word) (s : State) :
    (regSetDist d v s).session = s.session := by unfold regSetDist; split <;> rfl
@[simp] theorem regSetDist_round (d : Byte) (v : Word) (s : State) :
    (regSetDist d v s).round = s.round := by unfold regSetDist; split <;> rfl
@[simp] theorem regSetDist_seq (d : Byte) (v : Word) (s : State) :
    (regSetDist d v s).seq = s.seq := by unfold regSetDist; split <;> rfl
@[simp] theorem regSetDist_timing (d : Byte) (v : Word) (s : State) :
    (regSetDist d v s).timing = s.timing := by unfold regSetDist; split <;> rfl
@[simp] theorem regSetDist_distLimit (d : Byte) (v : Word) (s : State) :
    (regSetDist d v s).distLimit = s.distLimit := by unfold regSetDist; split <;> rfl
@[simp] theorem regSetDist_lastAbort (d : Byte) (v : Word) (s : State) :
    (regSetDist d v s).lastAbort = s.lastAbort := by unfold regSetDist; split <;> rfl
@[simp] theorem regSetDist_registry (d : Byte) (v : Word) (s : State) :
    (regSetDist d v s).registry = match findId d s with
      | none => s.registry
      | some k => s.registry.modify k (fun p => { p with dist := v }) := by unfold regSetDist; split <;> simp_all
@[simp] theorem regSetDist_stamps (d : Byte) (v : Word) (s : State) :
    (regSetDist d v s).stamps = s.stamps := by unfold regSetDist; split <;> rfl
@[simp] theorem regSetDist_mem (d : Byte) (v : Word) (s : State) :
    (regSetDist d v s).mem = s.mem := by unfold regSetDist; split <;> rfl
@[simp] theorem regSetDist_inlen (d : Byte) (v : Word) (s : State) :
    (regSetDist d v s).inlen = s.inlen := by unfold regSetDist; split <;> rfl
@[simp] theorem regSetDist_clen (d : Byte) (v : Word) (s : State) :
    (regSetDist d v s).clen = s.clen := by unfold regSetDist; split <;> rfl
@[simp] theorem regSetDist_out (d : Byte) (v : Word) (s : State) :
    (regSetDist d v s).out = s.out := by unfold regSetDist; split <;> rfl
@[simp] theorem regSetDist_readData (d : Byte) (v : Word) (s : State) :
    (regSetDist d v s).readData = s.readData := by unfold regSetDist; split <;> rfl
@[simp] theorem regSetDist_schedule (d : Byte) (v : Word) (s : State) :
    (regSetDist d v s).schedule = s.schedule := by unfold regSetDist; split <;> rfl
@[simp] theorem regSetDist_envTick (d : Byte) (v : Word) (s : State) :
    (regSetDist d v s).envTick = s.envTick := by unfold regSetDist; split <;> rfl
@[simp] theorem regSetDist_draws (d : Byte) (v : Word) (s : State) :
    (regSetDist d v s).draws = s.draws := by unfold regSetDist; split <;> rfl
@[simp] theorem regSetDist_outBefore (d : Byte) (v : Word) (s : State) :
    (regSetDist d v s).outBefore = s.outBefore := by unfold regSetDist; split <;> rfl

/-! ### illegalAccess -/

@[simp] theorem illegalAccess_params (s : State) :
    (illegalAccess s).params = s.params := rfl
@[simp] theorem illegalAccess_enable (s : State) :
    (illegalAccess s).enable = s.enable := rfl
@[simp] theorem illegalAccess_role (s : State) :
    (illegalAccess s).role = s.role := rfl
@[simp] theorem illegalAccess_status (s : State) :
    (illegalAccess s).status = { s.status with accessErr := true } := rfl
@[simp] theorem illegalAccess_irqEn (s : State) :
    (illegalAccess s).irqEn = s.irqEn := rfl
@[simp] theorem illegalAccess_cmdStatus (s : State) :
    (illegalAccess s).cmdStatus = s.cmdStatus := rfl
@[simp] theorem illegalAccess_args (s : State) :
    (illegalAccess s).args = s.args := rfl
@[simp] theorem illegalAccess_cfgOut (s : State) :
    (illegalAccess s).cfgOut = s.cfgOut := rfl
@[simp] theorem illegalAccess_eui (s : State) :
    (illegalAccess s).eui = s.eui := rfl
@[simp] theorem illegalAccess_session (s : State) :
    (illegalAccess s).session = s.session := rfl
@[simp] theorem illegalAccess_round (s : State) :
    (illegalAccess s).round = s.round := rfl
@[simp] theorem illegalAccess_seq (s : State) :
    (illegalAccess s).seq = s.seq := rfl
@[simp] theorem illegalAccess_timing (s : State) :
    (illegalAccess s).timing = s.timing := rfl
@[simp] theorem illegalAccess_distLimit (s : State) :
    (illegalAccess s).distLimit = s.distLimit := rfl
@[simp] theorem illegalAccess_lastAbort (s : State) :
    (illegalAccess s).lastAbort = s.lastAbort := rfl
@[simp] theorem illegalAccess_registry (s : State) :
    (illegalAccess s).registry = s.registry := rfl
@[simp] theorem illegalAccess_stamps (s : State) :
    (illegalAccess s).stamps = s.stamps := rfl
@[simp] theorem illegalAccess_mem (s : State) :
    (illegalAccess s).mem = s.mem := rfl
@[simp] theorem illegalAccess_inlen (s : State) :
    (illegalAccess s).inlen = s.inlen := rfl
@[simp] theorem illegalAccess_clen (s : State) :
    (illegalAccess s).clen = s.clen := rfl
@[simp] theorem illegalAccess_out (s : State) :
    (illegalAccess s).out = s.out := rfl
@[simp] theorem illegalAccess_readData (s : State) :
    (illegalAccess s).readData = s.readData := rfl
@[simp] theorem illegalAccess_schedule (s : State) :
    (illegalAccess s).schedule = s.schedule := rfl
@[simp] theorem illegalAccess_envTick (s : State) :
    (illegalAccess s).envTick = s.envTick := rfl
@[simp] theorem illegalAccess_draws (s : State) :
    (illegalAccess s).draws = s.draws := rfl
@[simp] theorem illegalAccess_outBefore (s : State) :
    (illegalAccess s).outBefore = s.outBefore := rfl

/-! ### blockReset -/

@[simp] theorem blockReset_params (s : State) :
    (blockReset s).params = s.params := rfl
@[simp] theorem blockReset_enable (s : State) :
    (blockReset s).enable = (State.resetOf s.params).enable := rfl
@[simp] theorem blockReset_role (s : State) :
    (blockReset s).role = (State.resetOf s.params).role := rfl
@[simp] theorem blockReset_status (s : State) :
    (blockReset s).status = (State.resetOf s.params).status := rfl
@[simp] theorem blockReset_irqEn (s : State) :
    (blockReset s).irqEn = (State.resetOf s.params).irqEn := rfl
@[simp] theorem blockReset_cmdStatus (s : State) :
    (blockReset s).cmdStatus = (State.resetOf s.params).cmdStatus := rfl
@[simp] theorem blockReset_args (s : State) :
    (blockReset s).args = (State.resetOf s.params).args := rfl
@[simp] theorem blockReset_cfgOut (s : State) :
    (blockReset s).cfgOut = (State.resetOf s.params).cfgOut := rfl
@[simp] theorem blockReset_eui (s : State) :
    (blockReset s).eui = (State.resetOf s.params).eui := rfl
@[simp] theorem blockReset_session (s : State) :
    (blockReset s).session = (State.resetOf s.params).session := rfl
@[simp] theorem blockReset_round (s : State) :
    (blockReset s).round = (State.resetOf s.params).round := rfl
@[simp] theorem blockReset_seq (s : State) :
    (blockReset s).seq = (State.resetOf s.params).seq := rfl
@[simp] theorem blockReset_timing (s : State) :
    (blockReset s).timing = (State.resetOf s.params).timing := rfl
@[simp] theorem blockReset_distLimit (s : State) :
    (blockReset s).distLimit = (State.resetOf s.params).distLimit := rfl
@[simp] theorem blockReset_lastAbort (s : State) :
    (blockReset s).lastAbort = (State.resetOf s.params).lastAbort := rfl
@[simp] theorem blockReset_registry (s : State) :
    (blockReset s).registry = (State.resetOf s.params).registry := rfl
@[simp] theorem blockReset_stamps (s : State) :
    (blockReset s).stamps = (State.resetOf s.params).stamps := rfl
@[simp] theorem blockReset_mem (s : State) :
    (blockReset s).mem = (State.resetOf s.params).mem := rfl
@[simp] theorem blockReset_inlen (s : State) :
    (blockReset s).inlen = (State.resetOf s.params).inlen := rfl
@[simp] theorem blockReset_clen (s : State) :
    (blockReset s).clen = (State.resetOf s.params).clen := rfl
@[simp] theorem blockReset_out (s : State) :
    (blockReset s).out = (State.resetOf s.params).out := rfl
@[simp] theorem blockReset_readData (s : State) :
    (blockReset s).readData = s.readData := rfl
@[simp] theorem blockReset_schedule (s : State) :
    (blockReset s).schedule = s.schedule := rfl
@[simp] theorem blockReset_envTick (s : State) :
    (blockReset s).envTick = s.envTick := rfl
@[simp] theorem blockReset_draws (s : State) :
    (blockReset s).draws = s.draws := rfl
@[simp] theorem blockReset_outBefore (s : State) : (blockReset s).outBefore = s.outBefore ++ s.out := rfl

end Sys2Proof.Machine
end

