-- ==== Sys2Proof/Laws/Ops.lean ====
section
/-! SUPPORT. Laws/Ops: what each shared operation does, said once, so that a proof cites it and does not unfold it. -/

namespace Sys2Proof.Machine

/-! ### The codec buffer -/

/-- `CBUF` after `storeC f`: the frame, zero-filled to 128 bytes (41_codec.md R122). -/
theorem cbufByte_storeC (f : List Byte) (s : State) {k : Nat} (hk : k < bufSize) :
    cbufByte (storeC f s).mem k = f.getD k 0 := by
  rw [cbufByte, storeC_mem, Memory.read_store, if_pos ⟨by omega, by omega⟩, Nat.add_sub_cancel_left]

/-- `storeC` writes no byte outside `CBUF`. -/
theorem read_storeC_outside (f : List Byte) (s : State) {a : Nat}
    (ha : ¬(cbufBase ≤ a ∧ a < cbufBase + bufSize)) : (storeC f s).mem.read a = s.mem.read a := by
  rw [storeC_mem, Memory.read_store, if_neg ha]

/-- The frame `storeC f` holds is `f` (41_codec.md R122). -/
theorem cbufBytes_storeC (f : List Byte) (s : State) {n : Nat} (hn : n ≤ f.length) (h : n ≤ bufSize) :
    cbufBytes (storeC f s).mem n = f.take n := by
  refine List.ext_getElem (by simp [hn]) fun k h₁ h₂ => ?_
  simp only [length_cbufBytes] at h₁
  simp only [cbufBytes, Memory.getElem_bytes]
  have := cbufByte_storeC f s (k := k) (by omega)
  rw [cbufByte] at this
  rw [this, List.getElem_take, List.getD_eq_getElem?_getD, List.getElem?_eq_getElem (by omega)]
  rfl

theorem toNat_clen_storeC (f : List Byte) (s : State) (h : f.length ≤ frameMax) :
    (storeC f s).clen.toNat = f.length := by
  have : f.length < 256 := by unfold frameMax at h; omega
  simp [Nat.mod_eq_of_lt this]

/-- `CBUF[0..CLEN)` after `storeC f` (41_codec.md R122). -/
theorem heldFrame_storeC (f : List Byte) (s : State) (h : f.length ≤ frameMax) :
    heldFrame (storeC f s) = f := by
  rw [heldFrame, toNat_clen_storeC f s h, cbufBytes_storeC f s le_rfl (by unfold frameMax at h; unfold bufSize; omega),
    List.take_length]

/-- Every byte of `CBUF` from the frame's end on is 0 (41_codec.md R122). -/
theorem cbufByte_storeC_zero (f : List Byte) (s : State) {k : Nat} (h₁ : f.length ≤ k) (h₂ : k < bufSize) :
    cbufByte (storeC f s).mem k = 0 := by
  rw [cbufByte_storeC f s h₂, List.getD_eq_getElem?_getD, List.getElem?_eq_none h₁]; rfl

/-- `take` is the consumption of the message flag and, unless the frame is oversized, a `storeC` of `INBUF[0..INLEN)`
(44_coordinator.md R196). -/
theorem take_cases (s : State) :
    (inlenAccepted s = true
        ∧ take s = storeC (inbufBytes s.mem s.inlen.toNat) { s with status.msgPending := false })
      ∨ (inlenAccepted s = false ∧ take s = { s with status.msgPending := false }) := by
  unfold take storeReceived
  cases h : inlenAccepted s <;> simp

/-! ### The built frames, byte by byte (30_encoding.md R98, R103) -/

theorem blinkFrame_eq (seq : Byte) (dst src : ExtAddr) :
    blinkFrame seq dst src = [0x41, 0xCC, seq, 0xCA, 0xDE] ++ le8 dst ++ le8 src ++ [0x01, 0x00, 0x00] := rfl

theorem bcastFrame_eq (seq : Byte) (src : ExtAddr) :
    bcastFrame seq src = [0x41, 0xC8, seq, 0xCA, 0xDE, 0xFF, 0xFF] ++ le8 src ++ [0x02, 0x00, 0x00] := rfl

theorem configFrame_eq (seq : Byte) (dst src : ExtAddr) (t : ConfigTriple) :
    configFrame seq dst src t =
      [0x41, 0xCC, seq, 0xCA, 0xDE] ++ le8 dst ++ le8 src ++ [0x03, t.init, t.assigned, t.total, 0x00, 0x00] := by
  simp only [configFrame, mkFrame, List.append_assoc]; rfl

theorem le2_shortOfId (x : Byte) : le2 (shortOfId x) = [x, 0x00] := by
  have h : x.toNat < 256 := x.isLt
  have h1 : x.toNat % 65536 = x.toNat := Nat.mod_eq_of_lt (by omega)
  simp [le2, leBytes, shortOfId, h1, Nat.div_eq_of_lt h]

theorem rangingFrame_eq (seq : Byte) (dst : BitVec 16) (src fc : Byte) (pl : List Byte) :
    rangingFrame seq dst src fc pl =
      [0x41, 0x88, seq, 0xCA, 0xDE] ++ le2 dst ++ [src, 0x00, fc] ++ pl ++ [0x00, 0x00] := by
  simp only [rangingFrame, mkFrame, le2_shortOfId, List.append_assoc]; rfl

@[simp] theorem length_blinkFrame (seq : Byte) (dst src : ExtAddr) : (blinkFrame seq dst src).length = 24 := by
  simp [blinkFrame_eq]

@[simp] theorem length_bcastFrame (seq : Byte) (src : ExtAddr) : (bcastFrame seq src).length = 18 := by
  simp [bcastFrame_eq]

@[simp] theorem length_configFrame (seq : Byte) (dst src : ExtAddr) (t : ConfigTriple) :
    (configFrame seq dst src t).length = 27 := by
  simp [configFrame_eq]

@[simp] theorem length_rangingFrame (seq : Byte) (dst : BitVec 16) (src fc : Byte) (pl : List Byte) :
    (rangingFrame seq dst src fc pl).length = 12 + pl.length := by
  simp [rangingFrame_eq]; omega

theorem length_rangingPayload_le (fc : Byte) (s : State) : (rangingPayload fc s).length ≤ 4 := by
  unfold rangingPayload; split <;> simp

/-! ### Outcome and refusal -/

/-- What a command that needs role NONE does (41_codec.md R121). -/
theorem inRoleNone_cases (opc : Byte) (run : State → State) (s : State) :
    (s.role = .none ∧ inRoleNone opc run s = .next (run s))
      ∨ (s.role ≠ .none ∧ inRoleNone opc run s = .next (refuse opc .wrongRole s)) := by
  unfold inRoleNone
  by_cases h : s.role = .none <;> simp [h]

/-- What a registry mutation or SESSION_SET does (42_registry.md R152, 43_session.md R172). -/
theorem unlessCoordBusy_cases (opc : Byte) (run : State → State) (s : State) :
    (coordBusy s = false ∧ unlessCoordBusy opc run s = .next (run s))
      ∨ (coordBusy s = true ∧ unlessCoordBusy opc run s = .next (refuse opc .busy s)) := by
  unfold unlessCoordBusy
  cases h : coordBusy s <;> simp

theorem coordBusy_iff (s : State) :
    coordBusy s = true ↔ s.role = .coord ∧ s.status.coordState ≠ .idle := by
  simp [coordBusy]

/-! ### Round abort -/

/-- The state an abort leaves (60_exceptions.md R266). -/
theorem abort_eq (c : AbortCause) (p : Option Byte) (s : State) :
    abort c p s =
      { s with
        round := Round.cleared s.params.cap
        status :=
          { s.status with
            respPhase := .poll
            roundFail := true
            coordState := if s.role = .coord then .idle else s.status.coordState }
        lastAbort := { cause := c, evictId := p.getD 0, evictV := p.isSome } } := by
  unfold abort; split <;> rfl

/-! ### Registry lookups -/

/-- `findAddr` answers the least slot with the address (42_registry.md R151). -/
theorem findAddr_eq_some_iff (x : ExtAddr) (s : State) (k : Nat) :
    findAddr x s = some k ↔ (∃ p, s.registry[k]? = some p ∧ p.addr = x)
      ∧ ∀ j < k, ∀ p, s.registry[j]? = some p → p.addr ≠ x := by
  rw [findAddr, List.findIdx?_eq_some_iff_getElem]
  constructor
  · rintro ⟨h, hx, hmin⟩
    refine ⟨⟨_, List.getElem?_eq_getElem h, by simpa using hx⟩, fun j hj p hp => ?_⟩
    have hjl : j < s.registry.length := by omega
    rw [List.getElem?_eq_getElem hjl, Option.some.injEq] at hp
    subst hp; simpa using hmin j hj
  · rintro ⟨⟨p, hp, hx⟩, hmin⟩
    obtain ⟨h, rfl⟩ := List.getElem?_eq_some_iff.mp hp
    exact ⟨h, by simpa using hx, fun j hj => by
      simpa using hmin j hj _ (List.getElem?_eq_getElem (by omega))⟩

theorem findAddr_eq_none_iff (x : ExtAddr) (s : State) :
    findAddr x s = none ↔ ∀ p ∈ s.registry, p.addr ≠ x := by
  simp [findAddr, List.findIdx?_eq_none_iff]

/-- `findId` answers the least slot with the id (42_registry.md R151). -/
theorem findId_eq_some_iff (d : Byte) (s : State) (k : Nat) :
    findId d s = some k ↔ (∃ p, s.registry[k]? = some p ∧ p.id = d)
      ∧ ∀ j < k, ∀ p, s.registry[j]? = some p → p.id ≠ d := by
  rw [findId, List.findIdx?_eq_some_iff_getElem]
  constructor
  · rintro ⟨h, hx, hmin⟩
    refine ⟨⟨_, List.getElem?_eq_getElem h, by simpa using hx⟩, fun j hj p hp => ?_⟩
    have hjl : j < s.registry.length := by omega
    rw [List.getElem?_eq_getElem hjl, Option.some.injEq] at hp
    subst hp; simpa using hmin j hj
  · rintro ⟨⟨p, hp, hx⟩, hmin⟩
    obtain ⟨h, rfl⟩ := List.getElem?_eq_some_iff.mp hp
    exact ⟨h, by simpa using hx, fun j hj => by
      simpa using hmin j hj _ (List.getElem?_eq_getElem (by omega))⟩

theorem findId_eq_none_iff (d : Byte) (s : State) :
    findId d s = none ↔ ∀ p ∈ s.registry, p.id ≠ d := by
  simp [findId, List.findIdx?_eq_none_iff]

/-- `regAdd` appends one entry with the slot's stride id, or changes nothing (42_registry.md R153). -/
theorem regAdd_cases (x : ExtAddr) (s : State) :
    (s.registry.length < s.params.cap ∧ (∀ p ∈ s.registry, p.addr ≠ x)
        ∧ regAddResult x s = some (strideId s.session.initId (s.registry.length + 1))
        ∧ regAdd x s =
            { s with
              registry :=
                s.registry ++ [{ addr := x, id := strideId s.session.initId (s.registry.length + 1), dist := 0 }] })
      ∨ ((s.params.cap ≤ s.registry.length ∨ ∃ p ∈ s.registry, p.addr = x)
        ∧ regAddResult x s = none ∧ regAdd x s = s) := by
  by_cases h : s.params.cap ≤ regCount s ∨ (findAddr x s).isSome
  · refine .inr ⟨h.imp id fun h => ?_, ?_, ?_⟩
    · by_contra hc
      rw [(findAddr_eq_none_iff x s).mpr fun p hp hx => hc ⟨p, hp, hx⟩] at h
      simp at h
    · simp [regAddResult, h]
    · simp [regAdd, regAddResult, h]
  · have hr : regAddResult x s = some (strideId s.session.initId (s.registry.length + 1)) := by
      rw [regAddResult, if_neg h]; rfl
    push Not at h
    refine .inl ⟨h.1, ?_, hr, ?_⟩
    · exact (findAddr_eq_none_iff x s).mp (by simpa using h.2)
    · rw [regAdd, hr]

/-! ### Steps -/

/-- A step is the next action, taken from the state that waits for it. -/
theorem step_eq_act (s : State) : step s = act (nextAction s).1 (nextAction s).2 := rfl

theorem nextAction_cons {s : State} {a : Action} {rest : List Action} (h : s.schedule = a :: rest) :
    nextAction s = (a, { s with schedule := rest }) := by
  rw [nextAction, h]

theorem nextAction_nil {s : State} (h : s.schedule = []) :
    nextAction s = (Config.environment s.envTick, { s with envTick := s.envTick + 1 }) := by
  rw [nextAction, h]

/-- A command that a word decodes to is run; a word that does not decode is refused (20_memory.md R71). -/
theorem runCommand_cases (w : Word) (s : State) :
    (∃ i, decode w = .instr i ∧ runCommand w s = exec i s)
      ∨ (decode w = .illegalOpcode ∧ runCommand w s = .next (refuse (fieldOpc w) .illegalOpcode s))
      ∨ (decode w = .reservedField ∧ runCommand w s = .next (refuse (fieldOpc w) .reservedField s)) := by
  unfold runCommand
  cases h : decode w <;> simp

/-- A host write at a block offset: illegal, a command, or a register or window write (20_memory.md R61, R64, R71). -/
theorem hostWrite_cases (size off : Nat) (v : Word) (s : State) :
    (accessLegal size off = false ∧ hostWrite size off v s = .next (illegalAccess s))
      ∨ (accessLegal size off = true ∧ off = cmdOffset ∧ hostWrite size off v s = runCommand v s)
      ∨ (accessLegal size off = true ∧ off ≠ cmdOffset ∧ hostWrite size off v s = .next (writeLoc (locate off) v s)) := by
  unfold hostWrite
  cases h : accessLegal size off
  · simp
  · by_cases hc : off = cmdOffset <;> simp [hc]

/-- The coordinator's step by state (44_coordinator.md R190, R206). -/
theorem coordStep_cases (s : State) :
    (s.status.coordState = .complete ∧ coordStep s = some { s with status.coordState := .idle })
      ∨ (s.status.coordState = .idle ∧ coordStep s = idleStep s)
      ∨ (s.status.coordState = .awaitAcks ∧ coordStep s = awaitStep .ack acceptAck s)
      ∨ (s.status.coordState = .awaitFinals ∧ coordStep s = awaitStep .final acceptFinal s) := by
  unfold coordStep
  cases h : s.status.coordState <;> simp

/-- What a step while awaiting can be (44_coordinator.md R195, R196, R204). -/
theorem awaitStep_cases {e : FuncCode} {f : State → State} {s t : State} (h : awaitStep e f s = some t) :
    s.status.txPending = false
      ∧ ((s.status.msgPending = true ∧ t = awaitMessage e f s)
        ∨ (s.status.msgPending = false ∧ s.status.errPending = true ∧ t = awaitError s)) := by
  unfold awaitStep at h
  cases h1 : s.status.txPending <;> cases h2 : s.status.msgPending <;> cases h3 : s.status.errPending <;>
    simp_all

/-- What a message while awaiting can do (44_coordinator.md R196 to R203). -/
theorem awaitMessage_cases (e : FuncCode) (f : State → State) (s : State) :
    awaitMessage e f s = armWindow (take s)
      ∨ awaitMessage e f s = abort .blinkReceived none (regAdd (srcExt (take s).mem) (take s))
      ∨ awaitMessage e f s = abort .unexpectedCode none (take s)
      ∨ awaitMessage e f s = abort .sourceMismatch none (take s)
      ∨ (fcode (take s).mem = funcCodeByte e ∧ turnTarget (take s) = some (srcId (take s).mem)
        ∧ awaitMessage e f s = f (take s)) := by
  unfold awaitMessage
  dsimp only
  split
  · exact .inl rfl
  split
  · exact .inr (.inl rfl)
  split
  · exact .inr (.inr (.inl rfl))
  rename_i h3
  split
  · exact .inr (.inr (.inr (.inl rfl)))
  rename_i h4
  exact .inr (.inr (.inr (.inr ⟨not_not.mp h3, not_not.mp h4, rfl⟩)))

/-- What a step in IDLE can be (44_coordinator.md R192 to R194). -/
theorem idleStep_cases {s t : State} (h : idleStep s = some t) :
    s.status.txPending = false
      ∧ ((s.status.msgPending = true ∧ t = drainMessage s)
        ∨ (s.status.msgPending = false ∧ s.status.errPending = true ∧ t = { s with status.errPending := false })
        ∨ (s.status.msgPending = false ∧ s.status.errPending = false ∧ s.status.backoff = false
          ∧ s.round.pos = 0 ∧ t = startRound s)) := by
  unfold idleStep at h
  cases h1 : s.status.txPending <;> cases h2 : s.status.msgPending <;> cases h3 : s.status.errPending <;>
    simp_all

/-- What a step of the responder can be (45_responder.md R230, R232). -/
theorem respStep_cases {s t : State} (h : respStep s = some t) :
    s.status.txPending = false
      ∧ ((s.status.msgPending = true ∧ t = respMessage s)
        ∨ (s.status.msgPending = false ∧ s.status.errPending = true
          ∧ t = rearm { s with status.errPending := false })) := by
  unfold respStep at h
  cases h1 : s.status.txPending <;> cases h2 : s.status.msgPending <;> cases h3 : s.status.errPending <;>
    simp_all

/-- The sequencer steps only while enabled, as the role says (44_coordinator.md R190, 45_responder.md R230). -/
theorem sequencerStep_cases {s t : State} (h : sequencerStep s = some t) :
    s.enable = true
      ∧ ((s.role = .coord ∧ coordStep s = some t) ∨ (s.role = .resp ∧ respStep s = some t)) := by
  unfold sequencerStep at h
  cases h1 : s.enable <;> cases h2 : s.role <;> simp_all

/-- What a taken frame can do to a responder (45_responder.md R231, R246). -/
theorem respMessage_cases (s : State) :
    respMessage s = rearm (take s) ∨ respMessage s = onConfig (take s) ∨ respMessage s = onReset (take s)
      ∨ respMessage s = onStranger (take s) ∨ respMessage s = onInitiatorPoll (take s)
      ∨ respMessage s = onInitiatorRange (take s) ∨ respMessage s = onReplyFrame .ack (take s)
      ∨ respMessage s = onReplyFrame .final (take s) := by
  unfold respMessage
  generalize take s = t
  dsimp only
  split
  · unfold onFrame
    split <;> first | (split <;> simp) | simp
  · simp

/-! ## The getters' bytes and modes (41_codec.md R129 to R135) -/

/-- Byte `k` of the value of `n` little-endian bytes of the frame buffers is the byte at that address. -/
theorem extract_leValue_bytes {w n k : Nat} (m : Memory) (a : Nat) (hk : k < n) (hw : w = 8 * n) :
    ((BitVec.ofNat w (leValue (m.bytes a n))).extractLsb' (8 * k) 8 : Byte) = m.read (a + k) := by
  apply BitVec.eq_of_toNat_eq
  have h := leValue_byte (m.bytes a n) k (by simpa using hk)
  rw [Memory.getD_bytes, if_pos hk] at h
  rw [← h]
  subst hw
  have hp : (2 : Nat) ^ (8 * n) = 256 ^ k * 256 * 256 ^ (n - k - 1) := by
    rw [show (256 : Nat) = 2 ^ 8 from rfl, ← pow_mul, ← pow_mul, ← pow_add, ← pow_add]
    congr 1
    omega
  simp only [BitVec.extractLsb'_toNat, BitVec.toNat_ofNat, Nat.shiftRight_eq_div_pow]
  rw [show (2 : Nat) ^ (8 * k) = 256 ^ k by rw [show (256 : Nat) = 2 ^ 8 from rfl, ← pow_mul], hp, mul_assoc,
    Nat.mod_mul_right_div_self, Nat.mod_mul_right_mod]

/-- The mode two bits name: its bits, its address length, and which bits name a mode with an address. -/
theorem addrModeOf_spec (b : BitVec 2) :
    addrModeBits (addrModeOf b) = b ∧ alen (addrModeOf b) = (if b = 2 then 2 else if b = 3 then 8 else 0)
      ∧ (addrModeOf b = .short ↔ b = 2) ∧ (addrModeOf b = .extended ↔ b = 3) := by
  revert b; decide

end Sys2Proof.Machine
end

