-- ==== Sys2Proof/Laws/PerInstr.lean ====
section
/-! SUPPORT. Laws/PerInstr: what holds of each command as syntax: its word carries its opcode and agrees with
its row of spec/opcode_table.json (30_encoding.md R92, R93, R96). -/

namespace Sys2Proof

/-- The bits of a packed word, field by field (30_encoding.md R91). -/
theorem packWord_getLsbD (opc a b c : Byte) (i : Nat) :
    (packWord opc a b c).getLsbD i =
      if i < 8 then opc.getLsbD i
      else if i < 16 then a.getLsbD (i - 8)
      else if i < 24 then b.getLsbD (i - 16)
      else c.getLsbD (i - 24) := by
  have h : (packWord opc a b c).getLsbD i = BitVec.getLsbD (w := 8 + 8 + 8 + 8) (c ++ b ++ a ++ opc) i := rfl
  rw [h]
  simp only [BitVec.getLsbD_append, Nat.sub_sub]
  split <;> [rfl; skip]
  split <;> split <;> (try split) <;> (try split) <;> first | rfl | omega

theorem fieldOpc_packWord (opc a b c : Byte) : fieldOpc (packWord opc a b c) = opc := by
  refine BitVec.eq_of_getLsbD_eq fun i hi => ?_
  simp [fieldOpc, packWord_getLsbD, hi]

theorem fieldA_packWord (opc a b c : Byte) : fieldA (packWord opc a b c) = a := by
  refine BitVec.eq_of_getLsbD_eq fun i hi => ?_
  simp [fieldA, packWord_getLsbD, hi, show ¬ 8 + i < 8 by omega, show 8 + i < 16 by omega]

theorem fieldB_packWord (opc a b c : Byte) : fieldB (packWord opc a b c) = b := by
  refine BitVec.eq_of_getLsbD_eq fun i hi => ?_
  simp [fieldB, packWord_getLsbD, hi, show ¬ 16 + i < 8 by omega, show ¬ 16 + i < 16 by omega,
    show 16 + i < 24 by omega]

theorem fieldC_packWord (opc a b c : Byte) : fieldC (packWord opc a b c) = c := by
  refine BitVec.eq_of_getLsbD_eq fun i hi => ?_
  simp [fieldC, packWord_getLsbD, hi, show ¬ 24 + i < 8 by omega, show ¬ 24 + i < 16 by omega,
    show ¬ 24 + i < 24 by omega]

/-- A word is its four fields (30_encoding.md R91). -/
theorem packWord_fields (w : Word) : packWord (fieldOpc w) (fieldA w) (fieldB w) (fieldC w) = w := by
  refine BitVec.eq_of_getLsbD_eq fun i hi => ?_
  rw [packWord_getLsbD]
  simp only [fieldOpc, fieldA, fieldB, fieldC, BitVec.getLsbD_extractLsb']
  split
  · simp [*]
  split
  · simp [show i - 8 < 8 by omega, show 8 + (i - 8) = i by omega]
  split
  · simp [show i - 16 < 8 by omega, show 16 + (i - 16) = i by omega]
  · simp [show i - 24 < 8 by omega, show 24 + (i - 24) = i by omega]

theorem packWord_and (o a b c o' a' b' c' : Byte) :
    packWord o a b c &&& packWord o' a' b' c' = packWord (o &&& o') (a &&& a') (b &&& b') (c &&& c') := by
  refine BitVec.eq_of_getLsbD_eq fun i hi => ?_
  simp only [BitVec.getLsbD_and, packWord_getLsbD]
  split <;> [rfl; skip]
  split <;> [rfl; skip]
  split <;> rfl

/-- Two packed words agree exactly where their fields do. -/
theorem packWord_inj {o a b c o' a' b' c' : Byte} (h : packWord o a b c = packWord o' a' b' c') :
    o = o' ∧ a = a' ∧ b = b' ∧ c = c' := by
  refine ⟨?_, ?_, ?_, ?_⟩
  · simpa only [fieldOpc_packWord] using congrArg fieldOpc h
  · simpa only [fieldA_packWord] using congrArg fieldA h
  · simpa only [fieldB_packWord] using congrArg fieldB h
  · simpa only [fieldC_packWord] using congrArg fieldC h

namespace Laws.EncodingMatchesRow

/-- The word of a well-formed command carries the command's opcode and agrees with its row's match under its mask
(30_encoding.md R92, R93). -/
def Statement (i : Instr) : Prop :=
  i.wellFormed = true →
    fieldOpc (encode i) = i.opcode
      ∧ ∃ row ∈ matchAndMask i.opcode.toNat, encode i &&& row.2 = row.1

/-- A row whose mask and match are given by their fields. -/
theorem of_fields {i : Instr} (opc : Byte) {a b c ma mb mc : Byte} (ho : i.opcode = opc)
    (he : encode i = packWord i.opcode a b c)
    (hrow : matchAndMask opc.toNat = some (packWord opc 0 0 0, packWord 0xFF ma mb mc))
    (ha : i.wellFormed = true → a &&& ma = 0) (hb : b &&& mb = 0) (hc : c &&& mc = 0) : Statement i := by
  intro hw
  subst ho
  refine ⟨by rw [he, fieldOpc_packWord], _, hrow, ?_⟩
  rw [he, packWord_and, ha hw, hb, hc]
  congr 1
  exact BitVec.and_allOnes (w := 8)

theorem buildBlink : Statement .buildBlink :=
  of_fields 0x01 (ma := 0xFF) (mb := 0xFF) (mc := 0xFF) rfl rfl (by decide) (fun _ => by decide) (by decide) (by decide)

theorem buildBcast : Statement .buildBcast :=
  of_fields 0x02 (ma := 0xFF) (mb := 0xFF) (mc := 0xFF) rfl rfl (by decide) (fun _ => by decide) (by decide) (by decide)

theorem buildConfig (init assigned total : Byte) : Statement (.buildConfig init assigned total) :=
  of_fields 0x03 (ma := 0) (mb := 0) (mc := 0) rfl rfl (by decide) (fun _ => BitVec.and_zero) BitVec.and_zero BitVec.and_zero

theorem buildRanging (fc srcId : Byte) : Statement (.buildRanging fc srcId) :=
  of_fields 0x04 (ma := 0) (mb := 0) (mc := 0xFF) rfl rfl (by decide) (fun _ => BitVec.and_zero) BitVec.and_zero (by decide)

theorem parse : Statement .parse :=
  of_fields 0x05 (ma := 0xFF) (mb := 0xFF) (mc := 0xFF) rfl rfl (by decide) (fun _ => by decide) (by decide) (by decide)

theorem parseConfig : Statement .parseConfig :=
  of_fields 0x06 (ma := 0xFF) (mb := 0xFF) (mc := 0xFF) rfl rfl (by decide) (fun _ => by decide) (by decide) (by decide)

theorem regContains : Statement .regContains :=
  of_fields 0x10 (ma := 0xFF) (mb := 0xFF) (mc := 0xFF) rfl rfl (by decide) (fun _ => by decide) (by decide) (by decide)

theorem regAdd : Statement .regAdd :=
  of_fields 0x11 (ma := 0xFF) (mb := 0xFF) (mc := 0xFF) rfl rfl (by decide) (fun _ => by decide) (by decide) (by decide)

theorem regRemove (id : Byte) : Statement (.regRemove id) :=
  of_fields 0x12 (ma := 0) (mb := 0xFF) (mc := 0xFF) rfl rfl (by decide) (fun _ => BitVec.and_zero) (by decide) (by decide)

theorem regUpdateId (id : Byte) : Statement (.regUpdateId id) :=
  of_fields 0x13 (ma := 0) (mb := 0xFF) (mc := 0xFF) rfl rfl (by decide) (fun _ => BitVec.and_zero) (by decide) (by decide)

theorem regSetDist (id : Byte) : Statement (.regSetDist id) :=
  of_fields 0x14 (ma := 0) (mb := 0xFF) (mc := 0xFF) rfl rfl (by decide) (fun _ => BitVec.and_zero) (by decide) (by decide)

theorem sessionSet (own init total : Byte) : Statement (.sessionSet own init total) :=
  of_fields 0x20 (ma := 0) (mb := 0) (mc := 0) rfl rfl (by decide) (fun _ => BitVec.and_zero) BitVec.and_zero BitVec.and_zero

theorem sendConfig (slot : Byte) : Statement (.sendConfig slot) :=
  of_fields 0x21 (ma := 0) (mb := 0xFF) (mc := 0xFF) rfl rfl (by decide) (fun _ => BitVec.and_zero) (by decide) (by decide)

theorem txSend (flags : Byte) : Statement (.txSend flags) :=
  of_fields 0x22 (ma := 0xFC) (mb := 0xFF) (mc := 0xFF) rfl rfl (by decide) (fun h => by simpa [Instr.wellFormed, txFlagsLegal] using h)
    (by decide) (by decide)

theorem rxEnable (flags : Byte) : Statement (.rxEnable flags) :=
  of_fields 0x23 (ma := 0xFE) (mb := 0xFF) (mc := 0xFF) rfl rfl (by decide) (fun h => by simpa [Instr.wellFormed, rxFlagsLegal] using h)
    (by decide) (by decide)

end Laws.EncodingMatchesRow

end Sys2Proof
end

