-- ==== Sys2Proof/Laws/Sequencer.lean ====
section
/-! SUPPORT. Laws/Sequencer: what one sequencer step comes to under the conditions Safety.lean names, and the registry facts the
commit of a round rests on. -/

namespace Sys2Proof.Machine

/-! ## Words and registry lookups -/

/-- The decoder on a word given by its four fields. -/
theorem decode_packWord (o a b c : Byte) :
    decode (packWord o a b c) =
  match o.toNat with
  | 0x01 => ifReservedZero (a == 0 && b == 0 && c == 0) .buildBlink
  | 0x02 => ifReservedZero (a == 0 && b == 0 && c == 0) .buildBcast
  | 0x03 => .instr (.buildConfig a b c)
  | 0x04 => ifReservedZero (c == 0) (.buildRanging a b)
  | 0x05 => ifReservedZero (a == 0 && b == 0 && c == 0) .parse
  | 0x06 => ifReservedZero (a == 0 && b == 0 && c == 0) .parseConfig
  | 0x10 => ifReservedZero (a == 0 && b == 0 && c == 0) .regContains
  | 0x11 => ifReservedZero (a == 0 && b == 0 && c == 0) .regAdd
  | 0x12 => ifReservedZero (b == 0 && c == 0) (.regRemove a)
  | 0x13 => ifReservedZero (b == 0 && c == 0) (.regUpdateId a)
  | 0x14 => ifReservedZero (b == 0 && c == 0) (.regSetDist a)
  | 0x20 => .instr (.sessionSet a b c)
  | 0x21 => ifReservedZero (b == 0 && c == 0) (.sendConfig a)
  | 0x22 => ifReservedZero (txFlagsLegal a && b == 0 && c == 0) (.txSend a)
  | 0x23 => ifReservedZero (rxFlagsLegal a && b == 0 && c == 0) (.rxEnable a)
  | _ => .illegalOpcode := by
  simp only [decode, fieldOpc_packWord, fieldA_packWord, fieldB_packWord, fieldC_packWord] <;> rfl

theorem coordBusy_eq_true {s : State} (h : s.role = .coord ∧ s.status.coordState ≠ .idle) : coordBusy s = true :=
  (coordBusy_iff s).mpr h

theorem coordBusy_eq_false {s : State} (h : ¬(s.role = .coord ∧ s.status.coordState ≠ .idle)) : coordBusy s = false := by
  rw [← Bool.not_eq_true, coordBusy_iff]; exact h

/-- The least slot with an address is the one `findAddr` answers. -/
theorem findAddr_eq_some {s : State} {k : Nat} {p : Peer} {x : ExtAddr} (h : s.registry[k]? = some p)
    (hx : p.addr = x) (hm : ∀ q ∈ s.registry.take k, q.addr ≠ x) : findAddr x s = some k := by
  rw [findAddr_eq_some_iff]
  refine ⟨⟨p, h, hx⟩, fun j hj q hq => hm q ?_⟩
  rw [List.mem_iff_getElem?]; exact ⟨j, by rw [List.getElem?_take_of_lt hj]; exact hq⟩

/-- The least slot with an id is the one `findId` answers. -/
theorem findId_eq_some {s : State} {k : Nat} {p : Peer} {x : Byte} (h : s.registry[k]? = some p)
    (hx : p.id = x) (hm : ∀ q ∈ s.registry.take k, q.id ≠ x) : findId x s = some k := by
  rw [findId_eq_some_iff]
  refine ⟨⟨p, h, hx⟩, fun j hj q hq => hm q ?_⟩
  rw [List.mem_iff_getElem?]; exact ⟨j, by rw [List.getElem?_take_of_lt hj]; exact hq⟩

theorem modify_eq_set {l : List Peer} {k : Nat} {p : Peer} {f : Peer → Peer} (h : l[k]? = some p) :
    l.modify k f = l.set k (f p) := by
  apply List.ext_getElem?
  intro i
  rw [List.getElem?_modify, List.getElem?_set]
  by_cases hi : k = i
  · subst hi
    obtain ⟨hk, rfl⟩ := List.getElem?_eq_some_iff.mp h
    simp [hk]
  · simp [hi]

theorem div_four_eq (x : Byte) : x / 4 = BitVec.ofNat 8 (x.toNat / 4) := by revert x; decide

/-! ## The codec buffer and the coordinator -/

/-- `storeC` leaves the frame in `CBUF` and every other byte as it was. -/
theorem holdsFrame_storeC (f : List Byte) (s : State) (h : f.length ≤ 127) : HoldsFrame f s (storeC f s) :=
  ⟨toNat_clen_storeC f s h, fun _ hk => cbufByte_storeC f s hk,
    fun _ ha => read_storeC_outside f s (by unfold cbufBase bufSize; omega)⟩

/-- Only `mem` and `CLEN` of the later state matter. -/
theorem holdsFrame_of_eq {f : List Byte} {s t u : State} (h : HoldsFrame f s t) (hm : u.mem = t.mem)
    (hc : u.clen = t.clen) : HoldsFrame f s u := by
  unfold HoldsFrame; rw [hm, hc]; exact h

theorem sequencer_coord {s : State} (he : s.enable = true) (hr : s.role = .coord) :
    act .sequencer s = .next ((coordStep s).getD s) := by
  simp [act, sequencerStep, he, hr]

theorem turnTarget_eq (s : State) : turnTarget s = s.session.targets[s.round.pos.toNat]? := by
  unfold turnTarget targetAt tgtCount
  split
  · rw [List.getD_eq_getElem?_getD, List.getElem?_eq_getElem (by assumption)]; rfl
  · rw [List.getElem?_eq_none (by omega)]

theorem not_discarded {s : State} (h : TakesWellFormed s)
    (hb : fcode (take s).mem = 0x01 → srcMode (take s).mem = .extended) :
    discarded s (take s) = false := by
  unfold discarded
  simp only [inlenAccepted, frameMax, h.1, h.2]
  by_cases h1 : fcode (take s).mem = 1
  · simp [hb h1]
  · simp [funcCodeByte]; exact fun h => absurd h h1

theorem sequencer_of_awaitTakes (s : State) (h : AwaitTakes s) :
    act .sequencer s = .next
      (if s.status.coordState = .awaitAcks then awaitMessage .ack acceptAck s
      else awaitMessage .final acceptFinal s) := by
  rcases h with ⟨he, hr, hc, ht, hm⟩ | ⟨he, hr, hc, ht, hm⟩ <;>
    rw [sequencer_coord he hr] <;> simp [coordStep, hc, awaitStep, ht, hm]

theorem abort_eq_coordAborted (c : AbortCause) (s : State) (h : s.role = .coord) : abort c none s = coordAborted c s := by
  rw [abort_eq]; simp [coordAborted, h, Round.cleared]

/-- A well-formed frame of the expected code from the target whose turn it is is accepted. -/
theorem awaitMessage_eq_accept {e : FuncCode} {f : State → State} {s : State} (hw : TakesWellFormed s)
    (h1 : fcode (take s).mem = funcCodeByte e) (hne : funcCodeByte e ≠ 1)
    (h2 : s.session.targets[s.round.pos.toNat]? = some (srcId (take s).mem)) :
    awaitMessage e f s = f (take s) := by
  have hx1 : fcode (take s).mem ≠ 1 := by rw [h1]; exact hne
  have hd := not_discarded hw (fun h => absurd h hx1)
  unfold awaitMessage
  dsimp only
  rw [if_neg (by simp [hd]), if_neg (show ¬ fcode (take s).mem = funcCodeByte .blink from hx1),
    if_neg (by simp [h1]), if_neg (by rw [turnTarget_eq]; simpa using h2)]

/-! ## The registry through a commit -/

/-- Setting a distance keeps every address and id. -/
theorem map_regSetDist (d : Byte) (v : Word) (s : State) :
    (regSetDist d v s).registry.map (fun p => (p.addr, p.id)) = s.registry.map (fun p => (p.addr, p.id)) := by
  unfold regSetDist
  split
  · rfl
  · apply List.ext_getElem?
    intro i
    simp only [List.getElem?_map, List.getElem?_modify]
    cases s.registry[i]? <;> simp
    split <;> simp

theorem findId_congr {s t : State}
    (h : s.registry.map (fun p => (p.addr, p.id)) = t.registry.map (fun p => (p.addr, p.id))) (d : Byte) :
    findId d s = findId d t := by
  unfold findId
  have : ∀ l : List Peer,
      l.findIdx? (fun p => p.id = d) = (l.map (fun p => (p.addr, p.id))).findIdx? (fun q => q.2 = d) := by
    intro l; rw [List.findIdx?_map]; rfl
  rw [this, this, h]

theorem regSetDist_eq (d : Byte) (v : Word) (s : State) :
    regSetDist d v s = { s with registry := (regSetDist d v s).registry } := by
  unfold regSetDist; split <;> rfl

/-- What a run of `regSetDist` over a list of positions leaves: the registry's addresses and ids, the value of each position
whose target no other position shares, and every slot no target finds. -/
theorem foldl_regSetDist_spec (tgt : Nat → Byte) (val : Nat → Word) (l : List Nat) (s : State) :
    let t := l.foldl (fun acc i => regSetDist (tgt i) (val i) acc) s
    t = { s with registry := t.registry }
      ∧ t.registry.map (fun p => (p.addr, p.id)) = s.registry.map (fun p => (p.addr, p.id))
      ∧ (∀ i ∈ l, ∀ k, findId (tgt i) s = some k → (∀ j ∈ l, tgt j = tgt i → j = i) →
        ∃ p, t.registry[k]? = some p ∧ p.dist = val i)
      ∧ (∀ k p, s.registry[k]? = some p → (∀ i ∈ l, findId (tgt i) s ≠ some k) → t.registry[k]? = some p) := by
  induction l generalizing s with
  | nil => simp
  | cons a l ih =>
    simp only [List.foldl_cons]
    have hids := map_regSetDist (tgt a) (val a) s
    obtain ⟨h1, h2, h3, h4⟩ := ih (regSetDist (tgt a) (val a) s)
    have hf := fun d => findId_congr hids d
    have keep : ∀ k p, s.registry[k]? = some p → findId (tgt a) s ≠ some k →
        (regSetDist (tgt a) (val a) s).registry[k]? = some p := by
      intro k p hp hne
      unfold regSetDist
      split
      · exact hp
      · rename_i k' hk'
        have hkk : k' ≠ k := by rintro rfl; exact hne hk'
        simp [hp, hkk]
    refine ⟨?_, h2.trans hids, ?_, ?_⟩
    · rw [h1, regSetDist_eq]
    · intro i hi k hk hu
      by_cases hil : i ∈ l
      · exact h3 i hil k (by rw [hf]; exact hk) (fun j hj => hu j (List.mem_cons_of_mem _ hj))
      · have hia : i = a := by simpa [hil] using hi
        subst hia
        obtain ⟨⟨p, hp, hpid⟩, hmin⟩ := (findId_eq_some_iff _ _ _).mp hk
        have e : (regSetDist (tgt i) (val i) s).registry[k]? = some { p with dist := val i } := by
          simp [regSetDist, hk, hp]
        refine ⟨_, h4 k _ e ?_, rfl⟩
        intro j hj hjk
        rw [hf] at hjk
        obtain ⟨⟨q, hq, hqid⟩, -⟩ := (findId_eq_some_iff _ _ _).mp hjk
        rw [hp] at hq; cases hq
        have := hu j (List.mem_cons_of_mem _ hj) (hqid.symm.trans hpid)
        subst this; exact hil hj
    · intro k p hp hne
      exact h4 k p (keep k p hp (hne a (by simp))) (fun i hi => by
        rw [hf]; exact hne i (List.mem_cons_of_mem _ hi))

/-! ## The responder -/

theorem sequencer_of_respTakes {s : State} (h : RespTakes s) : act .sequencer s = .next (respMessage s) := by
  obtain ⟨he, hr, ht, hm⟩ := h
  simp [act, sequencerStep, he, hr, respStep, ht, hm]

theorem sequencer_of_wellFormed {s : State} (h : RespTakes s) (hw : TakesWellFormed s) :
    act .sequencer s = .next (onFrame (take s)) := by
  rw [sequencer_of_respTakes h]; simp [respMessage, hw.2, inlenAccepted, frameMax, hw.1]

theorem onFrame_of_fcode {s : State} {c : FuncCode} (h : fcode s.mem = funcCodeByte c) :
    onFrame s =
      (match (generalizing := false) c with
        | .config => onConfig s
        | .reset => onReset s
        | .poll => if fromStranger s then onStranger s else onInitiatorPoll s
        | .range => if fromStranger s then onStranger s else onInitiatorRange s
        | .ack => onReplyFrame .ack s
        | .final => onReplyFrame .final s
        | .blink => rearm s
        | .bcast => rearm s) := by
  cases c <;> simp only [onFrame, h] <;> rfl

theorem expectedSource_eq (s : State) :
    expectedSource s = if s.round.pos = 0 then some s.session.initId else s.session.targets[s.round.pos.toNat]? := by
  rw [expectedSource, turnTarget_eq]

theorem atWaitPos_iff (s : State) : atWaitPos s = true ↔ s.round.pos = s.session.waitPos := by
  simp [atWaitPos]

theorem abort_eq_respAborted (c : AbortCause) (s : State) (h : s.role = .resp) :
    abort c none s = respAborted c s := by
  rw [abort_eq]; simp [respAborted, h, Round.cleared]

theorem respActive_iff (s : State) :
    respActive s = true ↔ (s.status.respPhase = .range ∨ 0 < s.round.pos.toNat) := by
  simp [respActive]

end Sys2Proof.Machine
end

