-- ==== Sys2Proof/Tests/Slice0.lean ====
section
/-! SUPPORT. Tests/Slice0: named tests. Expected values are those of spec/95_test_vectors.md (the vector is named at each test)
or are worked out by hand from the rule a test names. Each `witness_` theorem shows concrete states and operands that meet the
hypotheses of the obligation it names, clause by clause. -/

namespace Sys2Proof.Tests

open Sys2Proof Sys2Proof.Machine

-- One theorem after the other: each kernel evaluation in its own thread needs too much memory.
set_option Elab.async false

/-! ## Helpers -/

/-- The outcome is a next state that satisfies `p`. -/
def answers (o : Result) (p : State → Bool) : Bool :=
  match o with
  | .next t => p t
  | .fault _ => false
  | .refused _ => false

/-- The words a host reads at `offs` in the state a command or another action leaves. -/
def readsAfter (o : Result) (offs : List Nat) : List Word :=
  match o with
  | .next t => offs.map fun off => readAt off t
  | .fault _ => []
  | .refused _ => []

/-- The host writes a word to `CMD`. -/
def cmd (w : Word) (s : State) : Result := act (.host (.write 4 0x00C w)) s

/-- A radio reception. -/
def got (f : List Byte) (ts : Stamp) (s : State) : State := onRxGood f (BitVec.ofNat 16 f.length) ts s

/-- A frame with short addresses. -/
def steady (dst src : Byte) (fc : Byte) (pl : List Byte) : List Byte :=
  [0x41, 0x88, 0x00, 0xCA, 0xDE, dst, 0x00, src, 0x00, fc] ++ pl ++ [0x00, 0x00]

/-- An extended address below 256. -/
def ext8 (a : Byte) : List Byte := [a, 0, 0, 0, 0, 0, 0, 0]

/-- A frame with extended addresses. -/
def extended (dst src fc : Byte) (pl : List Byte) : List Byte :=
  [0x41, 0xCC, 0x00, 0xCA, 0xDE] ++ ext8 dst ++ ext8 src ++ [fc] ++ pl ++ [0x00, 0x00]

/-- V-G1's registry. -/
def fullRegistry : List Peer := [⟨0xA1, 8, 0⟩, ⟨0xA2, 12, 0⟩, ⟨0xA3, 16, 0⟩]

/-- Role NONE after V-G1, with an address in `ARGX_A` and a pattern in `ARG_F32`. -/
def host (a : ExtAddr) : State :=
  { deriveSession 4 4 1 State.reset with
    registry := fullRegistry
    args := { ts := 0xCAFEBABE, f32 := 0x3FC00000, time := 0x0123456789, xA := a, xB := 0x0102030405060708 }
    timing := { State.reset.timing with rxTimeout := 5000 } }

/-- V-F0 before its first step. -/
def idleCoord : State :=
  { deriveSession 4 4 3 State.reset with
    enable := true
    role := .coord
    registry := [⟨0xA8, 8, 0⟩, ⟨0xAC, 12, 0⟩]
    timing := { State.reset.timing with turnaround := 100000, rxTimeout := 5000 } }

/-- V-F0's coordinator in state `c`, its POLL sent at 0x1000, at round position `pos`. -/
def awaiting (c : CoordState) (pos : Byte) : State :=
  { idleCoord with
    status := { idleCoord.status with coordState := c, txKind := .poll }
    round := { idleCoord.round with pos := pos }
    stamps := { idleCoord.stamps with txPoll := 0x1000, txRange := 0x50000 } }

/-- The coordinator that awaits the last FINAL, with the intervals V-A1 for both targets, but for the second `RD2`. -/
def lastFinal : State :=
  { awaiting .awaitFinals 1 with
    stamps := { State.reset.stamps with txPoll := 0x1000, txRange := 0x1000 + 102132 + 202132 }
    round := { pos := 1, rt := [102132, 102132, 0], rd1 := [100000, 100000, 0], rd2 := [200000, 0, 0] } }

/-- The responder fixture of 2.7, in phase `ph` at position `pos`. -/
def responder (ph : RespPhase) (pos : Byte) : State :=
  { deriveSession 8 4 3 State.reset with
    enable := true
    role := .resp
    eui := 0xA8
    status := { State.reset.status with respPhase := ph }
    round := { (Round.cleared 3) with pos := pos }
    timing := { State.reset.timing with replyDelay := 0x100000, blinkDlyMin := 1000, blinkDlyMax := 1000 } }

/-- The responder at wait position 2, in phase `ph` at position `pos`. -/
def responderTwo (ph : RespPhase) (pos : Byte) : State :=
  { responder ph pos with session := { ownId := 12, initId := 4, nodeCount := 3, waitPos := 2, targets := [4, 8] } }

/-- `s` without an initiator. -/
def unconfigured (s : State) : State := { s with session := { s.session with initId := 0 } }

/-- A pending transmission. -/
def sending (s : State) : State := { s with status := { s.status with txPending := true, txKind := .blink } }

/-- A pending receive error. -/
def failing (c : ErrCause) (s : State) : State :=
  { s with status := { s.status with errPending := true, errCause := c } }

/-- `State.Inv`, part by part, as a test. -/
def invHolds (s : State) : Bool :=
  decide (ParamsOk s) && decide (MemOk s) && decide (CodecOk s) && decide (RegistryOk s) && decide (SessionOk s)
    && decide (RoundOk s) && decide (SequencerOk s) && decide (ResponderOk s) && decide (FlagsOk s)

theorem inv_of_invHolds {s : State} (h : invHolds s = true) : s.Inv := by
  simp only [invHolds, Bool.and_eq_true, decide_eq_true_eq] at h
  obtain ⟨⟨⟨⟨⟨⟨⟨⟨h1, h2⟩, h3⟩, h4⟩, h5⟩, h6⟩, h7⟩, h8⟩, h9⟩ := h
  exact ⟨h1, h2, h3, h4, h5, h6, h7, h8, h9⟩

/-! ## Well-formedness: each check refuses an ill-formed term and accepts its neighbour (30_encoding.md R92) -/

theorem test_wf_txSend_reserved_bit : (Instr.txSend 0x04).wellFormed = false ∧ (Instr.txSend 0x80).wellFormed = false := by
  decide

theorem test_wf_rxEnable_reserved_bit :
    (Instr.rxEnable 0x02).wellFormed = false ∧ (Instr.rxEnable 0x80).wellFormed = false := by decide

theorem test_wf_accepts_defined_flags : (Instr.txSend 0x03).wellFormed = true ∧ (Instr.rxEnable 0x01).wellFormed = true := by
  decide

/-! ## Every constructor's word, written out from 30_encoding.md R91, R92 (several are V-E6, V-C, V-G, V-S) -/

theorem test_word_buildBlink : decode 0x00000001 = .instr .buildBlink ∧ encode .buildBlink = 0x00000001 := by decide

theorem test_word_buildBcast : decode 0x00000002 = .instr .buildBcast ∧ encode .buildBcast = 0x00000002 := by decide

theorem test_word_buildConfig :
    decode 0x03080403 = .instr (.buildConfig 4 8 3) ∧ encode (.buildConfig 4 8 3) = 0x03080403 := by decide

theorem test_word_buildRanging :
    decode 0x000C0704 = .instr (.buildRanging 7 12) ∧ encode (.buildRanging 7 12) = 0x000C0704 := by decide

theorem test_word_parse : decode 0x00000005 = .instr .parse ∧ encode .parse = 0x00000005 := by decide

theorem test_word_parseConfig : decode 0x00000006 = .instr .parseConfig ∧ encode .parseConfig = 0x00000006 := by decide

theorem test_word_regContains : decode 0x00000010 = .instr .regContains ∧ encode .regContains = 0x00000010 := by decide

theorem test_word_regAdd : decode 0x00000011 = .instr .regAdd ∧ encode .regAdd = 0x00000011 := by decide

theorem test_word_regRemove : decode 0x00000C12 = .instr (.regRemove 12) ∧ encode (.regRemove 12) = 0x00000C12 := by decide

theorem test_word_regUpdateId :
    decode 0x00002813 = .instr (.regUpdateId 40) ∧ encode (.regUpdateId 40) = 0x00002813 := by decide

theorem test_word_regSetDist : decode 0x00001014 = .instr (.regSetDist 16) ∧ encode (.regSetDist 16) = 0x00001014 := by decide

theorem test_word_sessionSet :
    decode 0x03040820 = .instr (.sessionSet 8 4 3) ∧ encode (.sessionSet 8 4 3) = 0x03040820 := by decide

theorem test_word_sendConfig : decode 0x00000121 = .instr (.sendConfig 1) ∧ encode (.sendConfig 1) = 0x00000121 := by decide

theorem test_word_txSend :
    decode 0x00000122 = .instr (.txSend 1) ∧ decode 0x00000222 = .instr (.txSend 2) ∧ encode (.txSend 3) = 0x00000322 := by
  decide

theorem test_word_rxEnable :
    decode 0x00000023 = .instr (.rxEnable 0) ∧ decode 0x00000123 = .instr (.rxEnable 1)
      ∧ encode (.rxEnable 1) = 0x00000123 := by decide

/-- V-E1 and V-E2: refused words, by name. -/
theorem test_refused_words :
    decode 0x00000000 = .illegalOpcode ∧ decode 0x00000024 = .illegalOpcode ∧ decode 0xFFFFFF07 = .illegalOpcode
      ∧ decode 0x00000101 = .reservedField ∧ decode 0x00010405 = .reservedField ∧ decode 0x00010012 = .reservedField
      ∧ decode 0x01000904 = .reservedField ∧ decode 0x00000422 = .reservedField ∧ decode 0x00000223 = .reservedField := by
  decide

/-- The table's numbering: the low 32 bits are the command word. -/
theorem test_decodeTableWord :
    decodeTableWord 32 0x03080403 = some (.buildConfig 4 8 3) ∧ decodeTableWord 32 0x00000422 = none := by decide

/-! ## Commands, one step each -/

/-- V-C6 with SEQ 0: BUILD_BLINK's `CMD_STATUS`, CLEN and the words of `CBUF`. -/
theorem test_buildBlink :
    readsAfter (cmd 0x00000001 (host 0x1122334455667788)) [0x010, 0x084, 0x180, 0x184, 0x188, 0x18C, 0x190, 0x194, 0x198]
      = [0x00000101, 24, 0xCA00CC41, 0x667788DE, 0x22334455, 0x06070811, 0x02030405, 0x00000101, 0] := by decide +kernel

/-- V-C7 with SEQ 0. -/
theorem test_buildBcast :
    readsAfter (cmd 0x00000002 (host 0)) [0x010, 0x084, 0x180, 0x184, 0x188, 0x18C, 0x190, 0x194]
      = [0x00000102, 18, 0xCA00C841, 0x08FFFFDE, 0x04050607, 0x02010203, 0, 0] := by decide +kernel

/-- V-C8 with SEQ 0. -/
theorem test_buildConfig :
    readsAfter (cmd 0x03080403 (host 0x1122334455667788)) [0x010, 0x084, 0x0B8, 0x194, 0x198]
      = [0x00000103, 27, 0x0003150F, 0x08040301, 0x00000003] := by decide +kernel

/-- V-C4: FINAL carries `ARG_TS`. -/
theorem test_buildRanging :
    readsAfter (cmd 0x000C0704 (host 4)) [0x010, 0x084, 0x0B8, 0x0BC, 0x0D0, 0x188, 0x18C]
      = [0x00000104, 16, 0x0007090A, 0x000C0004, 0xCAFEBABE, 0xBABE0700, 0x0000CAFE] := by decide +kernel

/-- V-E3 and V-E4: a code that is no ranging code, and the role check. -/
theorem test_buildRanging_refused :
    readsAfter (cmd 0x00000904 (host 4)) [0x010] = [0x00005004] ∧ readsAfter (cmd 0x00000304 (host 4)) [0x010] = [0x00005004]
      ∧ readsAfter (cmd 0x00000001 idleCoord) [0x010] = [0x00003001] := by decide +kernel

/-- V-C10: an ACK cut short reads zeros beyond CLEN. -/
theorem test_parse_cut :
    readsAfter (cmd 0x00000005 (got [0x41, 0x88, 0x00, 0xCA, 0xDE, 0x04, 0x00, 0x08, 0x00, 0x05, 0x01, 0x02] 0 State.reset))
      [0x010, 0x084, 0x0D0, 0x0B8] = [0x00000105, 12, 0x00000201, 0x0005090A] := by decide +kernel

/-- V-C10: INLEN 128 is not accepted. -/
theorem test_parse_oversized :
    readsAfter (cmd 0x00000005 { host 0 with inlen := 128 }) [0x010, 0x084] = [0x00000005, 0] := by decide +kernel

/-- V-C11 at its two lengths 24 and 25. -/
theorem test_parseConfig_boundary :
    readsAfter (cmd 0x00000006 (storeC ((extended 1 2 3 [4, 8, 3]).take 24) State.reset)) [0x010, 0x034] = [0x00000006, 0]
      ∧ readsAfter (cmd 0x00000006 (storeC ((extended 1 2 3 [4, 8, 3]).take 25) State.reset)) [0x010, 0x034]
        = [0x00000106, 0x00030804] := by decide +kernel

/-- V-C12: the addressing modes are not checked. -/
theorem test_parseConfig_short :
    readsAfter (cmd 0x00000006 (storeC [0x41, 0x88, 0, 0xCA, 0xDE, 4, 0, 8, 0, 3, 7, 8, 9] State.reset)) [0x010, 0x034]
      = [0x00000106, 0x00090807] := by decide +kernel

/-- P2 line 11 and V-G6. -/
theorem test_regContains :
    readsAfter (cmd 0x00000010 (host 0xA3)) [0x010] = [0x00100110]
      ∧ readsAfter (cmd 0x00000010 (host 0xEE)) [0x010] = [0x00000010] := by decide +kernel

/-- V-G1's third add, and V-G2's fourth. -/
theorem test_regAdd :
    readsAfter (cmd 0x00000011 { host 0xA3 with registry := fullRegistry.take 2 }) [0x010, 0x04C, 0x420, 0x428]
        = [0x00100111, 3, 0x000000A3, 0x00000010]
      ∧ readsAfter (cmd 0x00000011 (host 0xA4)) [0x010, 0x04C] = [0x00000011, 3] := by decide +kernel

/-- V-G7: the id wraps modulo 256. -/
theorem test_regAdd_wrap :
    readsAfter (cmd 0x00000011 { deriveSession 250 250 1 (host 0xA2) with registry := [⟨0xA1, 254, 0⟩] }) [0x010]
      = [0x00020111] := by decide +kernel

/-- V-G3. -/
theorem test_regRemove :
    readsAfter (cmd 0x00000C12 (host 0)) [0x010, 0x04C, 0x400, 0x408, 0x410, 0x418, 0x420, 0x428]
      = [0x00000112, 2, 0xA1, 8, 0xA3, 0x10, 0, 0] := by decide +kernel

/-- P2 line 12, and V-G6. -/
theorem test_regUpdateId :
    readsAfter (cmd 0x00002813 (host 0xA3)) [0x010, 0x420, 0x428] = [0x00000113, 0xA3, 40]
      ∧ readsAfter (cmd 0x00002813 (host 0xEE)) [0x010, 0x428] = [0x00000013, 16] := by decide +kernel

/-- V-G5: the first entry with the id. -/
theorem test_regSetDist :
    readsAfter (cmd 0x00001014 { host 0 with registry := [⟨0xA1, 8, 0⟩, ⟨0xA3, 16, 0⟩, ⟨0xA4, 16, 0⟩] }) [0x010, 0x41C, 0x42C]
      = [0x00000114, 0x3FC00000, 0] := by decide +kernel

/-- V-S1: on the stride, off it, and wrapping. -/
theorem test_sessionSet :
    readsAfter (cmd 0x03040820 State.reset) [0x010, 0x040, 0x044, 0x200] = [0x00000120, 0x01030408, 0x00000200, 0x00000C04]
      ∧ readsAfter (cmd 0x03040620 State.reset) [0x040, 0x044, 0x200] = [0x00030406, 0x00000300, 0x000C0804]
      ∧ readsAfter (cmd 0x03FA0220 State.reset) [0x040, 0x200] = [0x0203FA02, 0x0000FEFA] := by decide +kernel

/-- V-E3 and V-E5. -/
theorem test_sessionSet_refused :
    readsAfter (cmd 0x00000020 State.reset) [0x010] = [0x00005020] ∧ readsAfter (cmd 0x05000020 State.reset) [0x010] = [0x00005020]
      ∧ readsAfter (cmd 0x03040420 (awaiting .awaitAcks 0)) [0x010] = [0x00004020] := by decide +kernel

/-- V-S3. -/
theorem test_sendConfig :
    let s := { idleCoord with enable := false, eui := 0xC4, registry := [⟨0xA1, 8, 0⟩, ⟨0xA2, 12, 0⟩] }
    readsAfter (cmd 0x00000121 s) [0x010, 0x004, 0x040, 0x200] = [0x000C0121, 0x0000C004, 0x00030404, 0x00000C08]
      ∧ answers (cmd 0x00000121 s)
        (fun t => t.out == [.tx (extended 0xA2 0xC4 3 [4, 12, 3]) .imm false 0]) = true := by decide +kernel

/-- V-S2, immediate and delayed with a window. -/
theorem test_txSend :
    answers (cmd 0x00000022 (storeC (steady 0xFF 4 4 []) (host 0)))
        (fun t => t.out == [.tx (steady 0xFF 4 4 []) .imm false 0] && readAt 0x004 t == 0x0000E004) = true
      ∧ answers (cmd 0x00000322 (storeC (steady 0xFF 4 4 []) (host 0)))
        (fun t => t.out == [.tx (steady 0xFF 4 4 []) (.dly 0x0123456789) true 5000]) = true := by decide +kernel

/-- V-E3 and V-E5. -/
theorem test_txSend_refused :
    readsAfter (cmd 0x00000122 (host 0)) [0x010] = [0x00005022] ∧ readsAfter (cmd 0x00000022 (sending (host 0))) [0x010] = [0x00004022]
      ∧ readsAfter (cmd 0x00000022 idleCoord) [0x010] = [0x00003022] := by decide +kernel

/-- V-S2. -/
theorem test_rxEnable :
    answers (cmd 0x00000123 (host 0)) (fun t => t.out == [.rxon 5000]) = true
      ∧ answers (cmd 0x00000023 (host 0)) (fun t => t.out == [.rxon 0]) = true
      ∧ readsAfter (cmd 0x00000023 (sending (host 0))) [0x010] = [0x00004023] := by decide +kernel

/-- V-C10: what is not well formed, by each of the three conditions; and the frame of V-C2, which is, at its least length. -/
theorem test_wellFormed :
    let wf := fun f : List Byte => let s := storeC f State.reset; wellFormed s.mem s.clen
    wf [0x41, 0x44, 0, 0xCA, 0xDE, 4, 0, 8, 0, 5] = false ∧ wf [0x41, 0x88, 3, 0xCA, 0xDE, 4, 0, 8, 0] = false
      ∧ wf [0x41, 0x88, 0, 0xCA, 0xDE, 4, 0, 8, 0, 5, 1, 2, 3] = false
      ∧ wf [0x41, 0x88, 0, 0xCA, 0xDE, 4, 0, 8, 0, 5, 1, 2, 3, 4] = true
      ∧ wf [0x41, 0x88, 3, 0xCA, 0xDE, 4, 0, 8, 0, 4] = true := by decide +kernel

/-! ## The host interface -/

/-- V-M1 and V-M2. -/
theorem test_reset_reads_and_illegal :
    readAt 0x040 State.reset = 0x00010000 ∧ readAt 0x068 State.reset = 0x000003E8
      ∧ readsAfter (act (.host (.read 4 0x002)) State.reset) [0x004] = [0x00000080]
      ∧ readsAfter (act (.host (.write 2 0x00C 0x0101)) State.reset) [0x004, 0x010] = [0x00000080, 0] := by decide +kernel

/-- V-M3. -/
theorem test_reserved_bits :
    readsAfter (act (.host (.write 4 0x000 0xFFFFFFFF)) State.reset) [0x000] = [1]
      ∧ readsAfter (act (.host (.write 4 0x008 0xFFFFFFFF)) State.reset) [0x008] = [0xFB]
      ∧ readsAfter (act (.host (.write 4 0x048 0x1FF)) State.reset) [0x048] = [0xFF]
      ∧ readsAfter (act (.host (.write 4 0x080 0x12345)) State.reset) [0x080] = [0x2345] := by decide +kernel

/-- V-M7 and V-M8. -/
theorem test_events_and_irq :
    readAt 0x004 (got [1] 1 (got [2] 0 State.reset)) = 0x00000041
      ∧ readAt 0x004 (onRxErr .rxError (onRxErr .rxTimeout State.reset)) = 0x00000042
      ∧ irq { got [1] 0 State.reset with irqEn := 0x01 } = true ∧ irq { got [1] 0 State.reset with irqEn := 0x08 } = false := by
  decide +kernel

/-- V-F12: disabling a running round. -/
theorem test_ctrl_aborts : readsAfter (act (.host (.write 4 0x000 0)) (awaiting .awaitAcks 1)) [0x004, 0x044, 0x06C]
    = [0x00002010, 0x00000200, 0x00000007] := by decide +kernel

/-! ## The sequencer -/

/-- V-F0, first step. -/
theorem test_coord_start :
    answers (act .sequencer idleCoord)
      (fun t => t.out == [.tx [0x41, 0x88, 0, 0xCA, 0xDE, 0xFF, 0xFF, 4, 0, 4, 0, 0] .imm true 5000]
        && readAt 0x004 t == 0x00002404) = true := by decide +kernel

/-- V-F1: a timeout evicts. -/
theorem test_coord_timeout :
    readsAfter (act .sequencer (failing .rxTimeout (awaiting .awaitAcks 0))) [0x06C, 0x04C, 0x400, 0x408]
      = [0x00010804, 1, 0xAC, 12] := by decide +kernel

/-- V-F4's ACK and V-F5's. -/
theorem test_coord_ack :
    readsAfter (act .sequencer (got (steady 4 8 5 [0xA0, 0x86, 1, 0]) 0x19EF4 (awaiting .awaitAcks 0))) [0x044, 0x800, 0x808]
        = [0x00000201, 102132, 100000]
      ∧ readsAfter (act .sequencer (got (steady 4 12 5 [0, 0, 0, 0]) 0x2000 (awaiting .awaitAcks 0))) [0x06C, 0x04C]
        = [0x00000002, 2] := by decide +kernel

/-- V-F7: a blink registers the newcomer and ends the round. -/
theorem test_coord_blink :
    readsAfter (act .sequencer (got (extended 0 0xB0 1 []) 0x3000 (awaiting .awaitAcks 0))) [0x06C, 0x04C, 0x420, 0x428]
      = [0x00000001, 3, 0xB0, 16] := by decide +kernel

/-- V-A1 for both targets: the round commits. -/
theorem test_coord_commit :
    readsAfter (act .sequencer (got (steady 4 12 7 [0x40, 0x0D, 3, 0]) 0x2000 lastFinal)) [0x40C, 0x41C, 0x044]
      = [0x40A00BA3, 0x40A00BA3, 0x00000200] := by decide +kernel

/-- V-R1: the reply of wait position 1. -/
theorem test_resp_poll :
    answers (act .sequencer (got (steady 0xFF 4 4 []) 0x5000 (responder .poll 0)))
      (fun t => t.out == [.tx (steady 4 8 5 [0, 0, 0x10, 0]) (.dly 0x105000) true 0] && t.stamps.phaseRx == 0x5000
        && t.round.pos == 1) = true := by decide +kernel

/-- V-R3 with the jitter window [1000, 1000]. -/
theorem test_resp_stranger :
    answers (act .sequencer (got (steady 0xFF 20 4 []) 0x5000 (responder .poll 0)))
      (fun t => t.out == [.tx (extended 0 0xA8 1 []) (.dly 0x53E8) true 0] && t.session.initId == 4) = true := by
  decide +kernel

/-- R246, D43 (log 13): a responder with `OWN_ID` = `INIT_ID` takes the initiator's RANGE as due, and counts it. -/
theorem test_resp_range_own_initiator :
    let s := { responder .range 0 with
               session := { ownId := 4, initId := 4, nodeCount := 3, waitPos := 0, targets := [8, 12] } }
    answers (act .sequencer (got (steady 0xFF 4 6 []) 0x5000 s))
      (fun t => t.round.pos == 1 && t.lastAbort.cause == .none && t.stamps.phaseRx == 0x5000) = true := by decide +kernel

/-- R240 (log 13): `NODE_COUNT` 1 and `WAIT_POS` 1, and a POLL of the initiator: the reply of wait position 1. -/
theorem test_resp_wait_beyond_count :
    answers (act .sequencer (got (steady 0xFF 4 4 []) 0x5000 (deriveSession 8 4 1 (responder .poll 0))))
      (fun t => t.out == [.tx (steady 4 8 5 [0, 0, 0x10, 0]) (.dly 0x105000) true 0] && t.round.pos == 1
        && t.status.respPhase == .poll) = true := by decide +kernel

/-- R282, R292 (log 16): what a timeout needs, with no request, a window without timeout, and one with, across a block reset. -/
theorem test_radioMay_timeout :
    radioMay State.reset .rxTimeout = true ∧ radioMay { State.reset with out := [.rxon 0] } .rxTimeout = false
      ∧ radioMay (blockReset { State.reset with out := [.rxon 0] }) .rxTimeout = false
      ∧ radioMay (blockReset { State.reset with out := [.rxon 5000] }) .rxTimeout = true := by decide +kernel

/-- V-R10: a config for this node. -/
theorem test_resp_config :
    readsAfter (act .sequencer (got (extended 0xA8 0xC4 3 [4, 12, 3]) 0x5000 (responder .poll 0))) [0x040, 0x200]
      = [0x0203040C, 0x00000804] := by decide +kernel

/-- V-A1, V-A6, V-A8 and V-A15: rounding; V-A5, V-A9: invalid. -/
theorem test_distances :
    f32OfRatio (distNum ⟨102132, 100000, 202132, 200000⟩) (distDen ⟨102132, 100000, 202132, 200000⟩) = 0x40A00BA3
      ∧ f32OfRatio (distNum ⟨1, 0, 1, 0⟩) (distDen ⟨1, 0, 1, 0⟩) = 0x3B19BD5E
      ∧ f32OfRatio (distNum ⟨426262, 0, 426262, 0⟩) (distDen ⟨426262, 0, 426262, 0⟩) = 0x4479FD76
      ∧ f32OfRatio 149896229 1 = 0x4D0EF3C2
      ∧ distValid 1000 ⟨426262, 0, 426262, 0⟩ = true ∧ distValid 1000 ⟨426280, 0, 426280, 0⟩ = false
      ∧ distValid 1000 ⟨100000, 100002, 100000, 100000⟩ = false ∧ distValid 1000 ⟨0, 0, 0, 0⟩ = false
      ∧ distValid 149896229 ⟨63897600000, 0, 63897600000, 0⟩ = false
      ∧ distValid 149896230 ⟨63897600000, 0, 63897600000, 0⟩ = true := by decide +kernel

/-! ## Witnesses: commands -/

theorem witness_DecodeOfEncode : (Instr.txSend 3).wellFormed = true ∧ (Instr.buildConfig 255 0 255).wellFormed = true := by decide

theorem witness_EncodeOfDecode : decode 0x00000322 = .instr (.txSend 3) ∧ decode 0xFFFFFF20 = .instr (.sessionSet 255 255 255) := by
  decide

/-- No row; a row whose reserved bits are set; a row that matches. -/
theorem witness_EveryWordRunsOrIsRefused :
    matchAndMask ((0xFFFFFF07 : Word).extractLsb' 0 8).toNat = none
      ∧ (matchAndMask ((0x00000422 : Word).extractLsb' 0 8).toNat = some (0x00000022, 0xFFFFFCFF)
        ∧ (0x00000422 : Word) &&& 0xFFFFFCFF ≠ 0x00000022 ∧ (0x00000322 : Word) &&& 0xFFFFFCFF = 0x00000022) := by decide

theorem witness_StepRunsTheWrittenCommand :
    (State.reset.withFetchWord 32 0x00000011).schedule = [.host (.write 4 0x00C 0x00000011)]
      ∧ decode 0x00000011 = .instr .regAdd ∧ decodeTableWord 32 0x00000011 = some .regAdd
      ∧ answers (step (State.reset.withFetchWord 32 0x00000011)) (fun t => t.registry.length == 1) = true := by decide +kernel

theorem witness_StepKeepsInvariant :
    idleCoord.Inv ∧ answers (step { idleCoord with schedule := [.sequencer] }) (fun t => t.status.coordState == .awaitAcks) = true :=
  ⟨inv_of_invHolds (by decide +kernel), by decide +kernel⟩

/-- The bounds of the parameters. -/
theorem witness_ResetHasInvariant :
    Params.Legal { maxNodes := 2, twrPairing := .literal, blinkLenTrim := 0, blockBase := 0 }
      ∧ Params.Legal { maxNodes := 63, twrPairing := .standard, blinkLenTrim := 24, blockBase := 0x40000000 } := by decide

theorem witness_BuildBlinkResult : idleCoord.role ≠ .none ∧ (host 0xA1).role = .none := by decide

theorem witness_BuildBcastResult : (responder .poll 0).role ≠ .none ∧ (host 0xA1).role = .none := by decide

theorem witness_BuildConfigResult : idleCoord.role ≠ .none ∧ State.reset.role = .none := by decide

/-- Codes 3 and 9 are refused, 4 and 8 are the ends of what is built. -/
theorem witness_BuildRangingResult :
    State.reset.role = .none ∧ idleCoord.role ≠ .none ∧ (0x03 : Byte) < 0x04 ∧ (0x08 : Byte) < 0x09
      ∧ ((0x04 : Byte) ≤ 0x04 ∧ (0x04 : Byte) ≤ 0x08) ∧ ((0x04 : Byte) ≤ 0x08 ∧ (0x08 : Byte) ≤ 0x08) := by decide

theorem witness_ParseResult :
    idleCoord.role ≠ .none
      ∧ ({ host 0 with inlen := 127 }.role = .none ∧ { host 0 with inlen := 127 }.inlen.toNat ≤ 127)
      ∧ { host 0 with inlen := 128 }.role = .none ∧ 127 < { host 0 with inlen := 128 }.inlen.toNat := by decide

/-- A frame of 25 bytes covers the triple, one of 24 does not. -/
theorem witness_ParseConfigResult :
    let s := storeC ((extended 1 2 3 [4, 8, 3]).take 25) State.reset
    let t := storeC ((extended 1 2 3 [4, 8, 3]).take 24) State.reset
    idleCoord.role ≠ .none
      ∧ (s.role = .none ∧ fcode s.mem = 0x03 ∧ headerLen s.mem + 1 + 3 ≤ s.clen.toNat)
      ∧ t.role = .none ∧ ¬(fcode t.mem = 0x03 ∧ headerLen t.mem + 1 + 3 ≤ t.clen.toNat) := by decide +kernel

theorem witness_RegContainsResult :
    (∀ p ∈ (host 0xEE).registry, p.addr ≠ (host 0xEE).args.xA)
      ∧ (host 0xA3).registry[2]? = some ⟨0xA3, 16, 0⟩ ∧ (0xA3 : ExtAddr) = (host 0xA3).args.xA
      ∧ ∀ q ∈ (host 0xA3).registry.take 2, q.addr ≠ (host 0xA3).args.xA := by decide

/-- Busy; full; known; one free slot and a new address. -/
theorem witness_RegAddResult :
    let s := { host 0xA3 with registry := fullRegistry.take 2 }
    ((awaiting .awaitAcks 0).role = .coord ∧ (awaiting .awaitAcks 0).status.coordState ≠ .idle)
      ∧ (¬((host 0xEE).role = .coord ∧ (host 0xEE).status.coordState ≠ .idle)
        ∧ (host 0xEE).params.cap ≤ (host 0xEE).registry.length)
      ∧ (∃ p ∈ s.registry, p.addr = { s with args := (host 0xA2).args }.args.xA)
      ∧ s.registry.length < s.params.cap ∧ ∀ p ∈ s.registry, p.addr ≠ s.args.xA := by decide

theorem witness_RegRemoveResult :
    ((awaiting .awaitFinals 0).role = .coord ∧ (awaiting .awaitFinals 0).status.coordState ≠ .idle)
      ∧ (¬(idleCoord.role = .coord ∧ idleCoord.status.coordState ≠ .idle) ∧ ∀ p ∈ idleCoord.registry, p.id ≠ 9)
      ∧ (host 0).registry[1]? = some ⟨0xA2, 12, 0⟩ ∧ ∀ q ∈ (host 0).registry.take 1, q.id ≠ 12 := by decide

theorem witness_RegUpdateIdResult :
    (awaiting .complete 0).role = .coord ∧ (awaiting .complete 0).status.coordState ≠ .idle
      ∧ (¬((host 0xEE).role = .coord ∧ (host 0xEE).status.coordState ≠ .idle) ∧ ∀ p ∈ (host 0xEE).registry, p.addr ≠ (host 0xEE).args.xA)
      ∧ (host 0xA1).registry[0]? = some ⟨0xA1, 8, 0⟩ ∧ (0xA1 : ExtAddr) = (host 0xA1).args.xA
      ∧ ∀ q ∈ (host 0xA1).registry.take 0, q.addr ≠ (host 0xA1).args.xA := by decide

theorem witness_RegSetDistResult :
    ((awaiting .awaitAcks 1).role = .coord ∧ (awaiting .awaitAcks 1).status.coordState ≠ .idle)
      ∧ (¬((host 0).role = .coord ∧ (host 0).status.coordState ≠ .idle) ∧ ∀ p ∈ (host 0).registry, p.id ≠ 20)
      ∧ (host 0).registry[2]? = some ⟨0xA3, 16, 0⟩ ∧ ∀ q ∈ (host 0).registry.take 2, q.id ≠ 16 := by decide

/-- Totals 0 and 5 are refused, 1 and 4 are the ends of what is accepted with MAX_NODES 4. -/
theorem witness_SessionSetResult :
    ((awaiting .awaitAcks 0).role = .coord ∧ (awaiting .awaitAcks 0).status.coordState ≠ .idle)
      ∧ ¬(idleCoord.role = .coord ∧ idleCoord.status.coordState ≠ .idle)
      ∧ ((0 : Byte) = 0 ∧ idleCoord.params.maxNodes < (5 : Byte).toNat)
      ∧ ((1 : Byte) ≠ 0 ∧ (1 : Byte).toNat ≤ idleCoord.params.maxNodes)
      ∧ ((4 : Byte) ≠ 0 ∧ (4 : Byte).toNat ≤ idleCoord.params.maxNodes) := by decide

/-- Another role; busy in a round and while transmitting; slot 2 of 2; slot 1. -/
theorem witness_SendConfigResult :
    State.reset.role ≠ .coord
      ∧ ((awaiting .awaitAcks 0).role = .coord ∧ (awaiting .awaitAcks 0).status.coordState ≠ .idle)
      ∧ ((sending idleCoord).role = .coord ∧ (sending idleCoord).status.txPending = true)
      ∧ (idleCoord.role = .coord ∧ idleCoord.status.coordState = .idle ∧ idleCoord.status.txPending = false)
      ∧ idleCoord.registry.length ≤ (2 : Byte).toNat ∧ idleCoord.registry[(1 : Byte).toNat]? = some ⟨0xAC, 12, 0⟩ := by decide

theorem witness_TxSendResult :
    let s := storeC [0x41] (host 0)
    ((0x04 : Byte) &&& 0xFC ≠ 0 ∧ (0x03 : Byte) &&& 0xFC = 0)
      ∧ idleCoord.role ≠ .none ∧ ((sending s).role = .none ∧ (sending s).status.txPending = true)
      ∧ ((host 0).role = .none ∧ (host 0).status.txPending = false ∧ (host 0).clen = 0)
      ∧ s.role = .none ∧ s.status.txPending = false ∧ s.clen ≠ 0 := by decide +kernel

theorem witness_RxEnableResult :
    ((0x02 : Byte) &&& 0xFE ≠ 0 ∧ (0x01 : Byte) &&& 0xFE = 0)
      ∧ idleCoord.role ≠ .none ∧ ((sending (host 0)).role = .none ∧ (sending (host 0)).status.txPending = true)
      ∧ (host 0).role = .none ∧ (host 0).status.txPending = false := by decide

theorem witness_RefusalChangesOnlyCmdStatus :
    answers (act (.host (.write 4 0x00C 0)) State.reset) (fun t => t.cmdStatus.err != .none) = true
      ∧ answers (act (.host (.write 4 0x00C 0x00000001)) idleCoord) (fun t => t.cmdStatus.err != .none) = true := by decide +kernel

theorem witness_CommandOutcomeAndFrame :
    answers (act (.host (.write 4 0x00C 0x00000010)) (host 0xA1)) (fun t => t.cmdStatus.resId != 0) = true := by decide +kernel

/-! ## Witnesses: the host interface -/

/-- `s` with its block at bus address 0x40001000. -/
def mapped (s : State) : State := { s with params := { s.params with blockBase := 0x40001000 } }

/-- A size, an alignment and a bound that are illegal; the first and the last legal word; the first and the last bus address of
the block, and the ones next to them. -/
theorem witness_HostReadsAndIllegalAccesses :
    (2 ≠ 4 ∧ (0x002 : Nat) % 4 ≠ 0 ∧ 0x1000 ≤ 0x1000)
      ∧ ((0x000 : Nat) % 4 = 0 ∧ 0x000 < 0x1000) ∧ ((0xFFC : Nat) % 4 = 0 ∧ 0xFFC < 0x1000)
      ∧ (0x000 < 0x1000 ∧ 0x40001000 = (mapped (host 0)).params.blockBase + 0x000)
      ∧ (0xFFF < 0x1000 ∧ 0x40001FFF = (mapped (host 0)).params.blockBase + 0xFFF)
      ∧ 0x40000FFF < (mapped (host 0)).params.blockBase
      ∧ (mapped (host 0)).params.blockBase + 0x1000 ≤ 0x40002000 := by decide

/-- A bus read of `DIST_LIMIT`, and one just below the block. -/
theorem test_bus_access :
    answers (act (.bus (.read 4 0x40001068)) (mapped State.reset)) (fun t => t.readData == 1000) = true
      ∧ answers (act (.bus (.read 4 0x40000FFC)) (mapped State.reset)) (fun t => t == mapped State.reset) = true := by
  decide +kernel

/-- An entry, the first and the last slot without one, the first and the last position of the arrays. -/
theorem witness_LegalReadReturnsTheRegister :
    (host 0).Inv ∧ (host 0).registry[2]? = some ⟨0xA3, 16, 0⟩
      ∧ (3 < 64 ∧ (host 0).registry.length ≤ 3) ∧ (63 < 64 ∧ (host 0).registry.length ≤ 63)
      ∧ 0 < (host 0).params.cap ∧ 2 < (host 0).params.cap :=
  ⟨inv_of_invHolds (by decide +kernel), by decide +kernel⟩

/-- The ends of each reserved range; the first window entry beyond CAP; the ends of the read-only ranges. -/
theorem witness_ReservedAndReadOnlyIgnoreWrites :
    (∀ off ∈ [0x0D4, 0x0FC, 0x240, 0x3FC, 0xC00, 0xFFC], off % 4 = 0
        ∧ ((0x0D4 ≤ off ∧ off ≤ 0x0FC) ∨ (0x240 ≤ off ∧ off ≤ 0x3FC) ∨ (0xC00 ≤ off ∧ off ≤ 0xFFC)))
      ∧ (State.reset.Inv ∧ State.reset.params.cap ≤ 4 ∧ 4 * 1 = 4 ∧ State.reset.params.cap ≤ 3)
      ∧ ∀ off ∈ [0x010, 0x084, 0x06C, 0x07C, 0x088, 0x0D0, 0x180, 0x23C, 0x400, 0xBFC], off % 4 = 0
        ∧ (off ∈ [0x010, 0x034, 0x040, 0x044, 0x04C, 0x084] ∨ (0x06C ≤ off ∧ off ≤ 0x07C) ∨ (0x088 ≤ off ∧ off ≤ 0x0D0)
          ∨ (0x180 ≤ off ∧ off ≤ 0x23F) ∨ (0x400 ≤ off ∧ off ≤ 0xBFF)) := by
  refine ⟨by decide, ⟨inv_of_invHolds (by decide +kernel), by decide⟩, by decide⟩

theorem witness_WritableRegistersReadBack :
    readsAfter (act (.host (.write 4 0x020 0x1234)) State.reset) [0x020, 0x01C] = [0x34, 0]
      ∧ readsAfter (act (.host (.write 4 0x068 0xFFFFFFFF)) State.reset) [0x068, 0x064] = [0xFFFFFFFF, 0] := by decide +kernel

theorem witness_MailboxWriteNeedsRoleNone :
    idleCoord.role ≠ .none ∧ State.reset.role = .none ∧ 0 < 32 ∧ 31 < 32 := by decide

/-- A write that changes nothing; one that changes the role in a round; one that changes the enable alone. -/
theorem witness_CtrlWriteRestartsTheStateMachines :
    answers (act (.host (.write 4 0x000 0x00000003)) (awaiting .awaitAcks 1)) (fun t => t == awaiting .awaitAcks 1) = true
      ∧ answers (act (.host (.write 4 0x000 0x00000005)) (awaiting .awaitAcks 1))
        (fun t => t.role == .resp && t.out == [.rxon 0]) = true
      ∧ answers (act (.host (.write 4 0x000 0x00000002)) idleCoord) (fun t => !t.enable && t.role == .coord) = true := by
  decide +kernel

/-! ## Witnesses: the coordinator -/

theorem witness_CoordinatorStartsARound :
    idleCoord.enable = true ∧ idleCoord.role = .coord ∧ idleCoord.status.coordState = .idle ∧ idleCoord.status.backoff = false
      ∧ idleCoord.status.txPending = false ∧ idleCoord.status.msgPending = false ∧ idleCoord.status.errPending = false
      ∧ idleCoord.round.pos = 0 := by decide

/-- A POLL, a known blink, a new blink and a pending error in IDLE. -/
theorem witness_IdleDrainsTheMailbox :
    let p := got (steady 0xFF 20 4 []) 0 idleCoord
    let k := got (extended 0 0xA8 1 []) 0 idleCoord
    let n := got (extended 0 0xB0 1 []) 0 idleCoord
    let e := failing .rxError idleCoord
    (CoordTakes .idle p ∧ fcode (take p).mem ≠ 0x01)
      ∧ (CoordTakes .idle k ∧ TakesWellFormed k ∧ fcode (take k).mem = 0x01 ∧ srcMode (take k).mem = .extended
        ∧ ∃ q ∈ k.registry, q.addr = srcExt (take k).mem)
      ∧ (CoordTakes .idle n ∧ TakesWellFormed n ∧ fcode (take n).mem = 0x01 ∧ srcMode (take n).mem = .extended
        ∧ ¬(n.params.cap ≤ n.registry.length ∨ ∃ q ∈ n.registry, q.addr = srcExt (take n).mem))
      ∧ e.enable = true ∧ e.role = .coord ∧ e.status.coordState = .idle ∧ e.status.txPending = false
      ∧ e.status.msgPending = false ∧ e.status.errPending = true := by decide +kernel

/-- Each case with a step: COMPLETE, also while transmitting; a message; an error; a start; a responder's message. Each case
without: disabled; role NONE; transmitting; awaiting with nothing pending; IDLE in backoff; a responder with nothing pending. -/
theorem witness_HoldWhileTransmitting :
    (∀ s ∈ [sending (awaiting .complete 0), got [1] 0 (awaiting .awaitAcks 0), failing .rxError (awaiting .awaitFinals 0),
        idleCoord, got [1] 0 (responder .poll 0)], (sequencerStep s).isSome = true)
      ∧ ∀ s ∈ [{ got [1] 0 (awaiting .complete 0) with enable := false }, got [1] 0 { State.reset with enable := true },
        sending (got [1] 0 (awaiting .awaitAcks 0)), awaiting .awaitAcks 0, awaiting .awaitFinals 1,
        { idleCoord with status := { idleCoord.status with backoff := true } }, responder .range 0,
        { got [1] 0 (responder .poll 0) with enable := false }], sequencerStep s = none := by decide +kernel

/-- Lengths 127 and 128; an ACK cut short; a blink with a short source, in each awaiting state. -/
theorem witness_AwaitDiscardsAFrame :
    let o := got (List.replicate 128 0) 0 (awaiting .awaitAcks 0)
    let m := got (List.replicate 127 0) 0 (awaiting .awaitAcks 0)
    let c := got ((steady 4 8 5 []).take 11) 0 (awaiting .awaitAcks 0)
    let b := got (steady 4 8 1 []) 0 (awaiting .awaitFinals 0)
    (AwaitTakes o ∧ 127 < o.inlen.toNat ∧ ¬ TakesWellFormed o) ∧ m.inlen.toNat ≤ 127 ∧ (AwaitTakes c ∧ ¬ TakesWellFormed c)
      ∧ AwaitTakes b ∧ fcode (take b).mem = 0x01 ∧ srcMode (take b).mem ≠ .extended := by decide +kernel

/-- A blink (of a new and of a known node); a FINAL where an ACK is due; an ACK of the second target first. -/
theorem witness_AwaitAbortsTheRound :
    let n := got (extended 0 0xB0 1 []) 0 (awaiting .awaitAcks 0)
    let k := got (extended 0 0xA8 1 []) 0 (awaiting .awaitFinals 0)
    let c := got (steady 4 8 7 [0, 0, 0, 0]) 0 (awaiting .awaitAcks 0)
    let w := got (steady 4 12 5 [0, 0, 0, 0]) 0 (awaiting .awaitAcks 0)
    (AwaitTakes n ∧ TakesWellFormed n ∧ fcode (take n).mem = 0x01 ∧ srcMode (take n).mem = .extended
        ∧ ¬(n.params.cap ≤ n.registry.length ∨ ∃ p ∈ n.registry, p.addr = srcExt (take n).mem))
      ∧ (AwaitTakes k ∧ TakesWellFormed k ∧ fcode (take k).mem = 0x01 ∧ srcMode (take k).mem = .extended
        ∧ ∃ p ∈ k.registry, p.addr = srcExt (take k).mem)
      ∧ (AwaitTakes c ∧ TakesWellFormed c ∧ fcode (take c).mem ≠ 0x01 ∧ fcode (take c).mem ≠ 0x05)
      ∧ AwaitTakes w ∧ TakesWellFormed w ∧ fcode (take w).mem = 0x05
      ∧ w.session.targets[w.round.pos.toNat]? ≠ some (srcId (take w).mem) := by decide +kernel

/-- The first and the last ACK of a round of three nodes. -/
theorem witness_AckIsRecorded :
    let a := got (steady 4 8 5 [1, 0, 0, 0]) 0x2000 (awaiting .awaitAcks 0)
    let b := got (steady 4 12 5 [1, 0, 0, 0]) 0x2000 (awaiting .awaitAcks 1)
    (CoordTakes .awaitAcks a ∧ TakesWellFormed a ∧ fcode (take a).mem = 0x05
        ∧ a.session.targets[a.round.pos.toNat]? = some (srcId (take a).mem)
        ∧ (a.round.pos + 1).toNat + 1 ≠ a.session.nodeCount.toNat)
      ∧ CoordTakes .awaitAcks b ∧ TakesWellFormed b ∧ fcode (take b).mem = 0x05
      ∧ b.session.targets[b.round.pos.toNat]? = some (srcId (take b).mem)
      ∧ (b.round.pos + 1).toNat + 1 = b.session.nodeCount.toNat := by decide +kernel

/-- The first FINAL; the last with all intervals 0 (implausible); the last of a valid round with two distinct targets, and a
slot no target finds. -/
theorem witness_FinalIsRecordedAndTheRoundCommits :
    let a := got (steady 4 8 7 [1, 0, 0, 0]) 0x2000 (awaiting .awaitFinals 0)
    let b := got (steady 4 12 7 [0, 0, 0, 0]) 0x2000 (awaiting .awaitFinals 1)
    let c := got (steady 4 12 7 [0x40, 0x0D, 3, 0]) 0x2000 { lastFinal with registry := lastFinal.registry ++ [⟨0xB0, 16, 0⟩] }
    let recorded := fun s : State =>
      { take s with
        round := { s.round with rd2 := s.round.rd2.set s.round.pos.toNat (frameTs (take s).mem), pos := s.round.pos + 1 }
        stamps := { s.stamps with lastRx := s.stamps.rx } }
    let takes := fun s : State =>
      CoordTakes .awaitFinals s ∧ TakesWellFormed s ∧ fcode (take s).mem = 0x07
        ∧ s.session.targets[s.round.pos.toNat]? = some (srcId (take s).mem)
    (takes a ∧ (a.round.pos + 1).toNat + 1 ≠ a.session.nodeCount.toNat)
      ∧ (takes b ∧ (b.round.pos + 1).toNat + 1 = b.session.nodeCount.toNat ∧ targetValid (recorded b) 0 = false)
      ∧ takes c ∧ (c.round.pos + 1).toNat + 1 = c.session.nodeCount.toNat ∧ (∀ i < 2, targetValid (recorded c) i = true)
      ∧ findId (targetAt c 1) c = some 1 ∧ (∀ j < 2, targetAt c j = targetAt c 1 → j = 1)
      ∧ c.registry[2]? = some ⟨0xB0, 16, 0⟩ ∧ ∀ i < 2, findId (targetAt c i) c ≠ some 2 := by decide +kernel

/-- The first target is evicted; the initiator is not; a position beyond the targets evicts none. -/
theorem witness_TimeoutEvictsThePeer :
    let a := failing .rxTimeout (awaiting .awaitAcks 0)
    let b := { failing .rxError (awaiting .awaitFinals 0) with
               session := { ownId := 6, initId := 4, nodeCount := 3, waitPos := 0, targets := [4, 8, 12] } }
    let c := failing .rxError (awaiting .awaitFinals 2)
    (a.enable = true ∧ a.role = .coord ∧ a.status.coordState = .awaitAcks ∧ a.status.txPending = false
        ∧ a.status.msgPending = false ∧ a.status.errPending = true ∧ a.session.targets[a.round.pos.toNat]? = some 8
        ∧ (8 : Byte) ≠ a.session.initId)
      ∧ (b.enable = true ∧ b.role = .coord ∧ b.status.coordState = .awaitFinals ∧ b.status.txPending = false
        ∧ b.status.msgPending = false ∧ b.status.errPending = true
        ∧ b.session.targets[b.round.pos.toNat]? = some b.session.initId)
      ∧ c.session.targets[c.round.pos.toNat]? = none := by decide +kernel

/-- A round starts; a round is aborted by a timeout and by a write to `CTRL`. -/
theorem witness_CoordStateTransitions :
    answers (act .sequencer idleCoord) (fun t => t.status.coordState != idleCoord.status.coordState) = true
      ∧ answers (act .sequencer (failing .rxTimeout (awaiting .awaitAcks 0))) (fun t => t.status.coordState == .idle) = true
      ∧ answers (act (.host (.write 4 0x000 0)) (awaiting .awaitAcks 0)) (fun t => t.status.coordState == .idle) = true := by
  decide +kernel

/-! ## Witnesses: the responder -/

/-- A foreign POLL outside a phase; a foreign RANGE in a phase; a POLL of id 0 to a node without an initiator. -/
theorem witness_StrangerGetsABlink :
    let a := got (steady 0xFF 20 4 []) 0 (responder .poll 0)
    let b := got (steady 0xFF 20 6 []) 0 (responder .poll 1)
    let c := got (steady 0xFF 0 4 []) 0 (unconfigured (responder .poll 0))
    (RespTakes a ∧ TakesWellFormed a ∧ fcode (take a).mem = 0x04 ∧ srcId (take a).mem ≠ a.session.initId)
      ∧ (RespTakes b ∧ TakesWellFormed b ∧ fcode (take b).mem = 0x06 ∧ srcId (take b).mem ≠ b.session.initId
        ∧ 0 < b.round.pos.toNat)
      ∧ RespTakes c ∧ TakesWellFormed c ∧ fcode (take c).mem = 0x04 ∧ c.session.initId = 0 := by decide +kernel

/-- An ACK outside a phase, from the wrong source, and a FINAL where an ACK is due; a RANGE that is not due, in and outside a phase. -/
theorem witness_UnfittingFrameResetsThePhase :
    let a := got (steady 4 12 5 [0, 0, 0, 0]) 0 (responder .poll 0)
    let b := got (steady 4 16 5 [0, 0, 0, 0]) 0 (responder .poll 1)
    let c := got (steady 4 12 7 [0, 0, 0, 0]) 0 (responder .poll 1)
    let d := got (steady 0xFF 4 6 []) 0 (responder .poll 1)
    let e := got (steady 0xFF 4 6 []) 0 (responder .poll 0)
    (RespTakes a ∧ TakesWellFormed a ∧ fcode (take a).mem = 0x05 ∧ a.status.respPhase = .poll ∧ a.round.pos = 0)
      ∧ (RespTakes b ∧ TakesWellFormed b ∧ fcode (take b).mem = 0x05 ∧ 0 < b.round.pos.toNat
        ∧ b.session.targets[b.round.pos.toNat]? ≠ some (srcId (take b).mem))
      ∧ (RespTakes c ∧ TakesWellFormed c ∧ fcode (take c).mem = 0x07 ∧ c.status.respPhase = .poll ∧ 0 < c.round.pos.toNat
        ∧ c.session.targets[c.round.pos.toNat]? = some (srcId (take c).mem))
      ∧ (RespTakes d ∧ TakesWellFormed d ∧ fcode (take d).mem = 0x06 ∧ d.session.initId ≠ 0
        ∧ srcId (take d).mem = d.session.initId ∧ d.status.respPhase = .poll ∧ 0 < d.round.pos.toNat)
      ∧ RespTakes e ∧ TakesWellFormed e ∧ fcode (take e).mem = 0x06 ∧ srcId (take e).mem = e.session.initId
      ∧ e.status.respPhase = .poll ∧ e.round.pos = 0 := by decide +kernel

/-- An ACK at position 0 of the range phase: of the initiator (right source, wrong code) and of another (wrong source). -/
theorem witness_UnfittingFrameResetsThePhase_zero :
    let a := got (steady 4 4 5 [0, 0, 0, 0]) 0 (responder .range 0)
    let b := got (steady 4 12 5 [0, 0, 0, 0]) 0 (responder .range 0)
    (RespTakes a ∧ TakesWellFormed a ∧ fcode (take a).mem = 0x05 ∧ a.status.respPhase = .range ∧ a.round.pos = 0
        ∧ some a.session.initId = some (srcId (take a).mem))
      ∧ RespTakes b ∧ TakesWellFormed b ∧ fcode (take b).mem = 0x05 ∧ b.status.respPhase = .range ∧ b.round.pos = 0
      ∧ some b.session.initId ≠ some (srcId (take b).mem) := by decide +kernel

/-- A POLL (fresh, and in a phase), a RANGE, an ACK and a FINAL that are due: the last two at the last position, the ACK at
wait position 2. -/
theorem witness_ArrivalRepliesAndAdvances :
    let a := got (steady 0xFF 4 4 []) 0x5000 (responder .poll 0)
    let b := got (steady 0xFF 4 4 []) 0x5000 (responder .range 1)
    let c := got (steady 0xFF 4 6 []) 0x5000 (responder .range 0)
    let d := got (steady 4 8 5 [0, 0, 0, 0]) 0x5000 (responderTwo .poll 1)
    let e := got (steady 4 12 7 [0, 0, 0, 0]) 0x5000 (responder .range 1)
    (RespTakes a ∧ TakesWellFormed a ∧ fcode (take a).mem = 0x04 ∧ a.session.initId ≠ 0
        ∧ srcId (take a).mem = a.session.initId ∧ a.round.pos + 1 = a.session.waitPos)
      ∧ (RespTakes b ∧ TakesWellFormed b ∧ fcode (take b).mem = 0x04 ∧ srcId (take b).mem = b.session.initId
        ∧ b.status.respPhase = .range)
      ∧ (RespTakes c ∧ TakesWellFormed c ∧ fcode (take c).mem = 0x06 ∧ srcId (take c).mem = c.session.initId
        ∧ c.session.initId ≠ 0 ∧ c.status.respPhase = .range ∧ c.round.pos = 0)
      ∧ (RespTakes d ∧ TakesWellFormed d ∧ fcode (take d).mem = 0x05 ∧ d.status.respPhase = .poll ∧ 0 < d.round.pos.toNat
        ∧ d.session.targets[d.round.pos.toNat]? = some (srcId (take d).mem) ∧ d.round.pos + 1 = d.session.waitPos
        ∧ (d.round.pos + 1).toNat + 1 = d.session.nodeCount.toNat)
      ∧ RespTakes e ∧ TakesWellFormed e ∧ fcode (take e).mem = 0x07 ∧ e.status.respPhase = .range ∧ 0 < e.round.pos.toNat
      ∧ e.session.targets[e.round.pos.toNat]? = some (srcId (take e).mem) ∧ e.round.pos + 1 ≠ e.session.waitPos
      ∧ (e.round.pos + 1).toNat + 1 = e.session.nodeCount.toNat := by decide +kernel

/-- The FINAL of wait position 1 under STANDARD: it carries PHASE_RX_TS minus ACK_TX_TS (V-F15: 0x100854). -/
theorem witness_ArrivalRepliesAndAdvances_standard :
    let s := got (steady 0xFF 4 6 []) 0x200854
      { responder .range 0 with
        params := { vectorParams with twrPairing := .standard }
        stamps := { State.reset.stamps with ackTx := 0x100000 } }
    (RespTakes s ∧ TakesWellFormed s ∧ fcode (take s).mem = 0x06 ∧ srcId (take s).mem = s.session.initId
        ∧ s.session.initId ≠ 0 ∧ s.status.respPhase = .range ∧ s.round.pos = 0
        ∧ s.session.targets[s.round.pos.toNat]? = some (srcId (take s).mem) ∧ s.round.pos + 1 = s.session.waitPos)
      ∧ answers (act .sequencer s)
        (fun t => t.out == [.tx (steady 4 8 7 [0x54, 0x08, 0x10, 0x00]) (.dly 0x300854) true 0]) = true := by decide +kernel

/-- Dropped: oversized, a blink, code 9. A RESET in and outside a phase. An error. -/
theorem witness_ControlFramesAndErrors :
    let o := got (List.replicate 128 0) 0 (responder .poll 0)
    let b := got (extended 0 0xB0 1 []) 0 (responder .poll 1)
    let k := got (steady 4 8 9 []) 0 (responder .poll 0)
    let r := got (steady 0xFF 4 8 []) 0 (responder .poll 1)
    let q := got (steady 0xFF 4 8 []) 0 (responder .poll 0)
    let e := failing .rxError (responder .poll 1)
    (RespTakes o ∧ ¬ TakesWellFormed o) ∧ (RespTakes b ∧ fcode (take b).mem = 0x01) ∧ (RespTakes k ∧ 0x08 < fcode (take k).mem)
      ∧ (RespTakes r ∧ TakesWellFormed r ∧ fcode (take r).mem = 0x08 ∧ 0 < r.round.pos.toNat)
      ∧ (RespTakes q ∧ TakesWellFormed q ∧ fcode (take q).mem = 0x08 ∧ q.status.respPhase = .poll ∧ q.round.pos = 0)
      ∧ e.enable = true ∧ e.role = .resp ∧ e.status.txPending = false ∧ e.status.msgPending = false
      ∧ e.status.errPending = true := by decide +kernel

/-- A config for another node, with total 5, and cut to 24 bytes; one for this node with total 4, in a phase. -/
theorem witness_ControlFramesAndErrors_config :
    let x := got (extended 0xA9 0xC4 3 [4, 12, 3]) 0 (responder .poll 0)
    let y := got (extended 0xA8 0xC4 3 [4, 12, 5]) 0 (responder .poll 0)
    let z := got ((extended 0xA8 0xC4 3 [4, 12, 3]).take 24) 0 (responder .poll 0)
    let m := got (extended 0xA8 0xC4 3 [4, 12, 4]) 0 (responder .poll 1)
    (RespTakes x ∧ TakesWellFormed x ∧ fcode (take x).mem = 0x03 ∧ dstExt (take x).mem ≠ x.eui)
      ∧ (RespTakes y ∧ TakesWellFormed y ∧ fcode (take y).mem = 0x03
        ∧ y.params.maxNodes < ((take y).mem.read (0x180 + (headerLen (take y).mem + 1 + 2))).toNat)
      ∧ (RespTakes z ∧ TakesWellFormed z ∧ fcode (take z).mem = 0x03
        ∧ ¬(headerLen (take z).mem + 1 + 3 ≤ (take z).clen.toNat))
      ∧ RespTakes m ∧ TakesWellFormed m ∧ fcode (take m).mem = 0x03 ∧ dstMode (take m).mem = .extended
      ∧ dstExt (take m).mem = m.eui ∧ headerLen (take m).mem + 1 + 3 ≤ (take m).clen.toNat
      ∧ (take m).mem.read (0x180 + (headerLen (take m).mem + 1 + 2)) = 4 ∧ m.params.maxNodes = 4
      ∧ 0 < m.round.pos.toNat := by decide +kernel

theorem witness_ResponderNeverUsesTheRegistry :
    (responder .poll 0).role = .resp ∧ (sequencerStep (got (steady 0xFF 4 4 []) 0x5000 (responder .poll 0))).isSome = true := by
  decide +kernel

theorem witness_UnconfiguredResponderNeverRanges :
    let s := got (steady 0xFF 0 4 []) 0 (unconfigured (responder .poll 0))
    s.Inv ∧ s.role = .resp ∧ s.session.initId = 0 ∧ s.status.txPending = false
      ∧ answers (act .sequencer s) (fun t => t.status.txPending) = true :=
  ⟨inv_of_invHolds (by decide +kernel), by decide +kernel⟩

/-- Wait position 0, wait position 2 of one node and 4 of four: a stranger's POLL. -/
theorem witness_UnconfiguredResponderNeverRanges_wait :
    ∀ session ∈ [({ ownId := 6, initId := 4, nodeCount := 3, waitPos := 0, targets := [4, 8, 12] } : Session),
        { ownId := 12, initId := 4, nodeCount := 1, waitPos := 2, targets := [4] },
        { ownId := 20, initId := 4, nodeCount := 4, waitPos := 4, targets := [4, 8, 12] }],
      let s := got (steady 0xFF 20 4 []) 0 { responder .poll 0 with session := session }
      s.Inv ∧ s.role = .resp
        ∧ (s.session.waitPos = 0 ∨ s.session.nodeCount.toNat ≤ s.session.waitPos.toNat)
        ∧ ¬(s.session.nodeCount = 1 ∧ s.session.waitPos = 1) ∧ s.status.txPending = false
        ∧ answers (act .sequencer s) (fun t => t.status.txPending) = true := by
  intro session h
  fin_cases h <;> exact ⟨inv_of_invHolds (by decide +kernel), by decide +kernel⟩

/-! ## Witnesses: events, whole machine, arithmetic, laws -/

/-- The greatest accepted length and the least oversized one. -/
theorem witness_ReceptionIsCaptured :
    ((List.replicate 127 (0x41 : Byte)).length = (127 : BitVec 16).toNat ∧ (127 : BitVec 16).toNat ≤ 127)
      ∧ (List.replicate 128 (0x41 : Byte)).length = (128 : BitVec 16).toNat ∧ 127 < (128 : BitVec 16).toNat := by decide +kernel

theorem witness_TransmitDoneIsLatched :
    (awaiting .awaitAcks 0).status.txPending = false ∧ (sending (awaiting .awaitAcks 0)).status.txPending = true := by decide

theorem witness_BackoffTimerEndsTheBackoff :
    let s := { idleCoord with status := { idleCoord.status with backoff := true } }
    s.role = .coord ∧ s.status.coordState = .idle ∧ s.status.backoff = true
      ∧ answers (act .sequencer s) (fun t => t == s) = true := by decide +kernel

/-- A step that transmits, and the completion that ends a transmission. -/
theorem witness_OneTransmissionAtATime :
    answers (act .sequencer idleCoord) (fun t => txCount t.out == 1 && t.status.txPending) = true
      ∧ (sending idleCoord).status.txPending = true
      ∧ answers (act (.radio (.txDone 7)) (sending idleCoord)) (fun t => !t.status.txPending) = true := by decide +kernel

/-- SESSION_SET, a config, a mismatch; a host write and a completed round. -/
theorem witness_SessionAndSequenceLifetime :
    answers (act (.host (.write 4 0x00C 0x03040820)) State.reset) (fun t => t.session != State.reset.session) = true
      ∧ answers (act .sequencer (got (extended 0xA8 0xC4 3 [4, 12, 3]) 0 (responder .poll 0)))
        (fun t => t.session != (responder .poll 0).session) = true
      ∧ answers (act .sequencer (got (steady 4 16 5 [0, 0, 0, 0]) 0 (responder .poll 1))) (fun t => t.session.initId == 0) = true
      ∧ answers (act (.host (.write 4 0x048 5)) State.reset) (fun t => t.seq != 0) = true
      ∧ answers (act .sequencer (got (steady 4 12 7 [0, 0, 0, 0]) 0 (responder .range 1))) (fun t => t.seq == 1) = true := by
  decide +kernel

/-- Both sides of the interval, at its ends. -/
theorem witness_ValidityIsTheOpenInterval :
    targetValid { lastFinal with round := { lastFinal.round with rd2 := [200000, 200000, 0] } } 1 = true
      ∧ targetValid lastFinal 2 = false ∧ tofDen (intervals State.reset 0) = 0 := by decide +kernel

theorem witness_StoredDistanceIsNearestEven :
    targetValid lastFinal 0 = true ∧ targetDist lastFinal 0 = 0x40A00BA3 := by decide +kernel

/-- A denominator of 0; a target with `TC` = `RD2`; equal flight times of 427 ticks (V-A10). -/
theorem witness_TimeOfFlightLaws :
    tofDen ⟨0, 0, 0, 0⟩ = 0 ∧ (tcAt State.reset 0).toNat = (rd2At State.reset 0).toNat
      ∧ ((100854 : Nat) : ℚ) = (100000 : Nat) + 2 * (427 : ℚ) ∧ 0 < tofDen ⟨100854, 100000, 100854, 100000⟩ := by
  refine ⟨by decide, by decide +kernel, by norm_num, by decide⟩

/-- A build of each kind, and a receiver that holds the same bytes. -/
theorem witness_BuildThenParse :
    ∀ i ∈ [Instr.buildBlink, .buildBcast, .buildConfig 4 8 3, .buildRanging 7 12],
      (host 4).role = .none ∧ answers (exec i (host 4)) (fun t =>
        let u := got (cbufBytes t.mem t.clen.toNat) 0 State.reset
        t.cmdStatus.err == .none && u.role == .none && u.inlen == t.clen.zeroExtend 16
          && (List.range t.clen.toNat).all fun k => u.mem.read (0x100 + k) == t.mem.read (0x180 + k)) = true := by
  decide +kernel

theorem witness_RegistryAssignsStrideIds :
    let s := deriveSession 4 4 1 State.reset
    (s.registry = [] ∧ ([0xA1, 0xA2, 0xA3] : List ExtAddr).Nodup ∧ 3 ≤ s.params.cap
        ∧ s.session.initId.toNat + s.params.cap * 4 < 256)
      ∧ findId 12 (host 0) = some 1 ∧ (host 0).registry.length ≤ (host 0).params.cap
      ∧ ∀ p ∈ (regRemove 12 (host 0)).registry, p.addr ≠ 0xA4 := by decide +kernel

/-- The coordinator's own place, and the first and the last wait position of four nodes. -/
theorem witness_SessionTargetOrder :
    State.reset.params.Legal ∧ 1 ≤ 4 ∧ 4 ≤ State.reset.params.maxNodes ∧ (1 ≤ 1 ∧ 1 ≤ 4 - 1) ∧ 3 ≤ 4 - 1
      ∧ (deriveSession 16 4 4 State.reset).session.targets = [4, 8, 12] := by decide +kernel

/-- Two nodes; the first has sent one frame before its block reset, which the second receives. -/
theorem witness_NodesMeetOnlyThroughFrames :
    let s := { State.reset with outBefore := [.tx [0x41, 0x88] .imm false 0], schedule := [.sequencer] }
    let y : System := { nodes := [s, idleCoord] }
    y.nodes[0]? = some s ∧ answers (step s) (fun t => t.schedule == []) = true
      ∧ (s.outBefore ++ s.out)[0]? = some (.tx [0x41, 0x88] .imm false 0) ∧ y.nodes[1]? = some idleCoord
      ∧ ((netStep (.deliver 0 0 1 7) y).nodes[1]?.map fun t => t.inlen) = some 2 := by decide +kernel

end Sys2Proof.Tests
end

section
/-! PROOFS. What each agent can do to the state, said once: the command interface, the sequencer's messages and the host
access. The statements about every step are settled from these cases. -/

namespace Sys2Proof.Machine

/-! ## Commands -/

/-- What a command does to the state beside `CMD_STATUS`, with the guards under which it does it; a refused command does
nothing. -/
inductive CommandEffect (s : State) : State → Prop where
  | keep : CommandEffect s s
  | store (f : List Byte) (hlen : f.length ≤ frameMax) : CommandEffect s (storeC f s)
  | config (c : ConfigTriple) : CommandEffect s { s with cfgOut := c }
  | add (x : ExtAddr) : CommandEffect s (regAdd x s)
  | remove (d : Byte) : CommandEffect s (regRemove d s)
  | setId (k : Nat) (d : Byte) : CommandEffect s (regSetId k d s)
  | setDist (d : Byte) (v : Word) : CommandEffect s (regSetDist d v s)
  | session (own init total : Byte) (hlegal : totalLegal total s = true) :
      CommandEffect s (deriveSession own init total s)
  | sendConfig (slot : Byte) (hrole : s.role = .coord) (hidle : s.status.coordState = .idle)
      (htx : s.status.txPending = false) (hslot : slot.toNat < regCount s) : CommandEffect s (Machine.sendConfig slot s)
  | transmit (len : Nat) (mode : TxMode) (rxAfter : Bool) (tmo : Word) (htx : s.status.txPending = false) :
      CommandEffect s (txRequest .host len mode rxAfter tmo s)
  | receive (w : Word) : CommandEffect s (rxOn w s)

/-- `t` is `s` after the effect of some command and a write of its outcome to `CMD_STATUS`. -/
def Commanded (s t : State) : Prop := ∃ u c, CommandEffect s u ∧ t = { u with cmdStatus := c }

theorem commanded_finish {s u : State} (h : CommandEffect s u) (opc : Byte) (ok : Bool) (resId : Byte) :
    Commanded s (finish opc ok resId u) := ⟨u, _, h, rfl⟩

theorem commanded_refuse (opc : Byte) (code : ErrCode) (s : State) : Commanded s (refuse opc code s) :=
  ⟨s, _, .keep, rfl⟩

theorem commanded_of_inRoleNone {opc : Byte} {run : State → State} {s t : State}
    (h : inRoleNone opc run s = .next t) (hrun : Commanded s (run s)) : Commanded s t := by
  rcases inRoleNone_cases opc run s with ⟨-, e⟩ | ⟨-, e⟩ <;> rw [e] at h <;> cases h
  · exact hrun
  · exact commanded_refuse _ _ _

theorem commanded_of_unlessCoordBusy {opc : Byte} {run : State → State} {s t : State}
    (h : unlessCoordBusy opc run s = .next t) (hrun : Commanded s (run s)) : Commanded s t := by
  rcases unlessCoordBusy_cases opc run s with ⟨-, e⟩ | ⟨-, e⟩ <;> rw [e] at h <;> cases h
  · exact hrun
  · exact commanded_refuse _ _ _

theorem commanded_of_buildFrame {opc : Byte} {f : List Byte} {s : State} (h : f.length ≤ frameMax) :
    Commanded s (buildFrame opc f s) := commanded_finish (.store f h) _ _ _

theorem length_received_le {s : State} (h : inlenAccepted s = true) :
    (inbufBytes s.mem s.inlen.toNat).length ≤ frameMax := by
  simpa [inlenAccepted] using h

theorem commanded_of_execSendConfig {slot : Byte} {s t : State} (h : execSendConfig slot s = .next t) :
    Commanded s t := by
  unfold execSendConfig at h
  cases h
  split
  · exact commanded_refuse _ _ _
  split
  · exact commanded_refuse _ _ _
  split
  · exact commanded_refuse _ _ _
  next hrole hbusy hslot =>
    push Not at hrole hbusy hslot
    exact commanded_finish (.sendConfig slot hrole hbusy.1 (by simpa using hbusy.2) hslot) _ _ _

theorem commanded_of_execTxSend {flags : Byte} {s t : State} (h : execTxSend flags s = .next t) : Commanded s t := by
  unfold execTxSend at h
  split at h
  · refine commanded_of_inRoleNone h ?_
    split
    · exact commanded_refuse _ _ _
    split
    · exact commanded_refuse _ _ _
    next htx _ => exact commanded_finish (.transmit _ _ _ _ (by simpa using htx)) _ _ _
  · cases h
    exact commanded_refuse _ _ _

theorem commanded_of_execRxEnable {flags : Byte} {s t : State} (h : execRxEnable flags s = .next t) :
    Commanded s t := by
  unfold execRxEnable at h
  split at h
  · refine commanded_of_inRoleNone h ?_
    split
    · exact commanded_refuse _ _ _
    · exact commanded_finish (.receive _) _ _ _
  · cases h
    exact commanded_refuse _ _ _

/-- Every command that answers a next state leaves one of the effects above. -/
theorem commanded_of_exec {i : Instr} {s t : State} (h : exec i s = .next t) : Commanded s t := by
  cases i with
  | buildBlink => exact commanded_of_inRoleNone h (commanded_of_buildFrame (by simp [frameMax]))
  | buildBcast => exact commanded_of_inRoleNone h (commanded_of_buildFrame (by simp [frameMax]))
  | buildConfig init assigned total =>
    exact commanded_of_inRoleNone h (commanded_of_buildFrame (by simp [frameMax]))
  | buildRanging fc src =>
    rw [exec, execBuildRanging] at h
    refine commanded_of_inRoleNone h ?_
    split
    · have hpl := length_rangingPayload_le fc s
      exact commanded_of_buildFrame (by rw [length_rangingFrame]; unfold frameMax; omega)
    · exact commanded_refuse _ _ _
  | parse =>
    rw [exec, execParse] at h
    refine commanded_of_inRoleNone h ?_
    split
    next hin => exact commanded_finish (.store _ (length_received_le hin)) _ _ _
    next => exact commanded_finish .keep _ _ _
  | parseConfig =>
    rw [exec, execParseConfig] at h
    refine commanded_of_inRoleNone h ?_
    split
    next c _ => exact commanded_finish (.config c) _ _ _
    next => exact commanded_finish .keep _ _ _
  | regContains =>
    cases h
    split
    all_goals exact commanded_finish .keep _ _ _
  | regAdd =>
    rw [exec, execRegAdd] at h
    refine commanded_of_unlessCoordBusy h ?_
    split
    next => exact commanded_finish (.add _) _ _ _
    next => exact commanded_finish .keep _ _ _
  | regRemove id =>
    rw [exec, execRegRemove] at h
    exact commanded_of_unlessCoordBusy h (commanded_finish (.remove id) _ _ _)
  | regUpdateId id =>
    rw [exec, execRegUpdateId] at h
    refine commanded_of_unlessCoordBusy h ?_
    split
    next k _ => exact commanded_finish (.setId k id) _ _ _
    next => exact commanded_finish .keep _ _ _
  | regSetDist id =>
    rw [exec, execRegSetDist] at h
    exact commanded_of_unlessCoordBusy h (commanded_finish (.setDist id _) _ _ _)
  | sessionSet own init total =>
    rw [exec, execSessionSet] at h
    refine commanded_of_unlessCoordBusy h ?_
    split
    next hlegal => exact commanded_finish (.session own init total hlegal) _ _ _
    next => exact commanded_refuse _ _ _
  | sendConfig slot => exact commanded_of_execSendConfig h
  | txSend flags => exact commanded_of_execTxSend h
  | rxEnable flags => exact commanded_of_execRxEnable h

/-! ## Host accesses -/

/-- What a host access can do: nothing, a note in `readData` or `ACCESS_ERR`, a register or window write, a command. -/
inductive HostEffect (s : State) : State → Prop where
  | keep : HostEffect s s
  | read (v : Word) : HostEffect s { s with readData := v }
  | illegalRead (v : Word) : HostEffect s { illegalAccess s with readData := v }
  | illegalWrite : HostEffect s (illegalAccess s)
  | write (off : Nat) (v : Word) (haligned : off % 4 = 0) : HostEffect s (writeLoc (locate off) v s)
  | command {t : State} (h : Commanded s t) : HostEffect s t

theorem accessLegal_iff (size off : Nat) :
    accessLegal size off = true ↔ size = 4 ∧ off % 4 = 0 ∧ off < 0x1000 := by
  simp [accessLegal, and_assoc]

theorem hostEffect_hostRead (size off : Nat) (s : State) : HostEffect s (hostRead size off s) := by
  unfold hostRead
  split
  · exact .read _
  · exact .illegalRead _

theorem hostEffect_of_hostWrite {size off : Nat} {v : Word} {s t : State} (h : hostWrite size off v s = .next t) :
    HostEffect s t := by
  rcases hostWrite_cases size off v s with ⟨-, e⟩ | ⟨-, -, e⟩ | ⟨hlegal, -, e⟩ <;> rw [e] at h
  · cases h
    exact .illegalWrite
  · rcases runCommand_cases v s with ⟨i, -, e⟩ | ⟨-, e⟩ | ⟨-, e⟩ <;> rw [e] at h
    · exact .command (commanded_of_exec h)
    · cases h
      exact .command (commanded_refuse _ _ _)
    · cases h
      exact .command (commanded_refuse _ _ _)
  · cases h
    exact .write off v ((accessLegal_iff size off).mp hlegal).2.1

theorem hostEffect_of_hostAccess {a : HostAccess} {s t : State} (h : hostAccess a s = .next t) : HostEffect s t := by
  cases a with
  | read size off => cases h; exact hostEffect_hostRead size off s
  | write size off v => exact hostEffect_of_hostWrite h

/-- A bus access is the host access at its block offset, or none of the block's (20_memory.md R79). -/
theorem hostEffect_of_busAccess {a : HostAccess} {s t : State} (h : busAccess a s = .next t) : HostEffect s t := by
  cases a with
  | read size addr =>
    rw [busAccess] at h
    split at h
    · cases h; exact hostEffect_hostRead _ _ s
    · cases h; exact .keep
  | write size addr v =>
    rw [busAccess] at h
    split at h
    · exact hostEffect_of_hostWrite h
    · cases h; exact .keep

/-! ## The coordinator -/

/-- The state after an ACK's times are stored and the position moves on (44_coordinator.md R200). -/
def storeAck (s : State) : State :=
  { s with
    round :=
      { s.round with
        pos := s.round.pos + 1
        rt := s.round.rt.set s.round.pos.toNat (stampSub s.stamps.rx s.stamps.txPoll)
        rd1 := s.round.rd1.set s.round.pos.toNat (frameTs s.mem) }
    stamps.lastRx := s.stamps.rx }

/-- The state after a FINAL's time is stored and the position moves on (44_coordinator.md R202). -/
def storeFinal (s : State) : State :=
  { s with
    round :=
      { s.round with pos := s.round.pos + 1, rd2 := s.round.rd2.set s.round.pos.toNat (frameTs s.mem) }
    stamps.lastRx := s.stamps.rx }

theorem acceptAck_eq (s : State) :
    acceptAck s = if atLastPos (storeAck s) then sendRange (storeAck s) else armWindow (storeAck s) := rfl

theorem acceptFinal_eq (s : State) :
    acceptFinal s = if atLastPos (storeFinal s) then computeRound (storeFinal s) else armWindow (storeFinal s) := rfl

/-! ## The responder -/

/-- The state with the time of its reply scheduled (45_responder.md R242). -/
def scheduleReply (s : State) : State :=
  { s with stamps.schedTx := stampAdd s.stamps.rx (stampOfWord s.timing.replyDelay) }

/-- The frame of a reply at the scheduled time (45_responder.md R243). -/
def replyFrame (s : State) : List Byte :=
  rangingFrame s.seq (shortOfId s.session.initId) s.session.ownId (funcCodeByte (replyCode s))
    (le4 (replyValue s.stamps.schedTx s))

/-- A reply schedules its time, holds its frame and asks for its transmission (45_responder.md R242, R243). -/
theorem reply_eq (s : State) :
    reply s =
      txRequest (replyKind s) (storeC (replyFrame (scheduleReply s)) s).clen.toNat (.dly (scheduleReply s).stamps.schedTx)
        true 0 (storeC (replyFrame (scheduleReply s)) (scheduleReply s)) := rfl

theorem replyKind_ne_none (s : State) : replyKind s ≠ .none := by
  unfold replyKind
  split <;> simp

theorem length_replyFrame_le (s : State) : (replyFrame s).length ≤ frameMax := by
  simp [replyFrame, frameMax]

/-- The arrival's count, with the phase's end at the last position (45_responder.md R240). -/
def advance (s : State) : State :=
  let s' := { s with round.pos := s.round.pos + 1 }
  if atLastPos s' then endPhase s' else s'

/-- The first arrival of a phase latches its time (45_responder.md R240). -/
def stampPhase (s : State) : State := if s.round.pos = 0 then { s with stamps.phaseRx := s.stamps.rx } else s

/-- An arrival counts, and either replies first, which reads no position, or turns the receiver on (45_responder.md R240). -/
theorem arrival_cases (s : State) :
    arrival s = advance (reply (stampPhase s)) ∨ arrival s = rearm (advance (stampPhase s)) := by
  unfold arrival
  rw [← stampPhase]
  generalize stampPhase s = u
  dsimp only
  cases atWaitPos { u with round.pos := u.round.pos + 1 }
  · exact .inr rfl
  · exact .inl rfl

/-- What a taken frame can do to a responder, with what is known of its sender (45_responder.md R231, R237, R246). -/
theorem onFrame_cases (s : State) :
    onFrame s = rearm s ∨ onFrame s = onConfig s ∨ onFrame s = onReset s
      ∨ onFrame s = onStranger s
      ∨ (fromStranger s = false ∧ (onFrame s = onInitiatorPoll s ∨ onFrame s = onInitiatorRange s))
      ∨ onFrame s = onReplyFrame .ack s ∨ onFrame s = onReplyFrame .final s := by
  unfold onFrame
  cases hx : fromStranger s <;> split <;> simp

theorem respMessage_eq (s : State) : respMessage s = rearm (take s) ∨ respMessage s = onFrame (take s) := by
  unfold respMessage
  dsimp only
  split
  · exact .inr rfl
  · exact .inl rfl

theorem initId_ne_zero_of_not_fromStranger {s : State} (h : fromStranger s = false) : s.session.initId ≠ 0 := by
  simp only [fromStranger, Bool.or_eq_false_iff] at h
  simpa using h.1

end Sys2Proof.Machine
end

section
/-! PROOFS. The invariant of Safety.lean: the state after reset has it, and every action keeps it. An update that touches no
field the invariant reads keeps it by definition; the lemmas below are about the others. -/

namespace Sys2Proof.Machine

/-! ## The state after reset -/

theorem inv_resetOf {p : Params} (hp : p.Legal) : (State.resetOf p).Inv := by
  have hmax : 2 ≤ p.maxNodes := hp.1
  refine ⟨hp, ⟨⟨.nil, nofun⟩, nofun⟩, ⟨Nat.zero_le _, fun _ _ _ => rfl⟩, ⟨Nat.zero_le _, .nil⟩,
    ⟨Nat.zero_le _, le_rfl, ?_⟩, ⟨Nat.zero_le _, List.length_replicate, List.length_replicate, List.length_replicate⟩,
    ⟨fun _ => ⟨rfl, rfl⟩, fun _ => rfl, fun _ _ => rfl, fun _ => rfl, fun _ => rfl, nofun⟩,
    ⟨nofun, fun _ => Nat.zero_le _⟩, BitVec.getLsbD_zero, nofun, fun _ => rfl⟩
  show 1 ≤ p.maxNodes
  omega

/-! ## The frame buffers, the registry and the flags -/

theorem codecOk_storeC {f : List Byte} (s : State) (hf : f.length ≤ frameMax) : CodecOk (storeC f s) := by
  refine ⟨by rw [toNat_clen_storeC f s hf]; exact hf, fun k hk hle => cbufByte_storeC_zero f s ?_ hk⟩
  rwa [toNat_clen_storeC f s hf] at hle

theorem memOk_store {s : State} (h : MemOk s) {lo len : Nat} (bs : List Byte) (hlo : inbufBase ≤ lo)
    (hhi : lo + len ≤ cbufBase + bufSize) : MemOk { s with mem := s.mem.store lo len bs } :=
  ⟨Memory.store_wf h.1 _ _ _, Memory.store_bounds h.2 hlo hhi⟩

theorem inv_storeC {s : State} {f : List Byte} (h : s.Inv) (hf : f.length ≤ frameMax) : (storeC f s).Inv := by
  obtain ⟨hparams, hmem, -, hrest⟩ := h
  exact ⟨hparams, memOk_store hmem f (by decide) le_rfl, codecOk_storeC s hf, hrest⟩

/-- A store below `CBUF` keeps the invariant: it changes no byte of the frame the codec holds. -/
theorem inv_store_inbuf {s : State} (h : s.Inv) {lo len : Nat} (bs : List Byte) (hlo : inbufBase ≤ lo)
    (hhi : lo + len ≤ cbufBase) : State.Inv { s with mem := s.mem.store lo len bs } := by
  obtain ⟨hparams, hmem, ⟨hclen, hzero⟩, hrest⟩ := h
  refine ⟨hparams, memOk_store hmem bs hlo (by omega), ⟨hclen, fun k hk hle => ?_⟩, hrest⟩
  have hout : ¬(lo ≤ cbufBase + k ∧ cbufBase + k < lo + len) := by omega
  rw [cbufByte, Memory.read_store, if_neg hout]
  exact hzero k hk hle

theorem inv_take {s : State} (h : s.Inv) : (take s).Inv := by
  rcases take_cases s with ⟨hin, e⟩ | ⟨-, e⟩ <;> rw [e]
  · exact inv_storeC (s := { s with status.msgPending := false }) h (length_received_le hin)
  · exact h

theorem inv_registry {s : State} (h : s.Inv) {r : List Peer} (hlen : r.length ≤ s.params.cap)
    (hnodup : (r.map Peer.addr).Nodup) : State.Inv { s with registry := r } := by
  obtain ⟨hparams, hmem, hcodec, -, hrest⟩ := h
  exact ⟨hparams, hmem, hcodec, ⟨hlen, hnodup⟩, hrest⟩

/-- A registry with the same addresses in the same slots keeps the invariant. -/
theorem inv_registry_of_addrs {s : State} (h : s.Inv) {r : List Peer}
    (hr : r.map Peer.addr = s.registry.map Peer.addr) : State.Inv { s with registry := r } := by
  obtain ⟨hlen, hnodup⟩ : RegistryOk s := h.2.2.2.1
  have hl : r.length = s.registry.length := by simpa using congrArg List.length hr
  exact inv_registry h (hl ▸ hlen) (hr ▸ hnodup)

theorem map_modify_of_eq {l : List Peer} {k : Nat} {f : Peer → Peer} (hf : ∀ p, (f p).addr = p.addr) :
    (l.modify k f).map Peer.addr = l.map Peer.addr := by
  refine List.ext_getElem? fun i => ?_
  rw [List.getElem?_map, List.getElem?_modify, List.getElem?_map]
  cases l[i]? <;> by_cases hk : k = i <;> simp [hk, hf]

theorem inv_regAdd {s : State} (h : s.Inv) (x : ExtAddr) : (regAdd x s).Inv := by
  obtain ⟨-, hnodup⟩ : RegistryOk s := h.2.2.2.1
  rcases regAdd_cases x s with ⟨hroom, hnew, -, e⟩ | ⟨-, -, e⟩ <;> rw [e]
  · refine inv_registry h (by simpa using hroom) ?_
    rw [List.map_append, List.map_singleton, List.nodup_append]
    refine ⟨hnodup, List.nodup_singleton _, fun a ha b hb => ?_⟩
    obtain ⟨p, hp, rfl⟩ := List.mem_map.mp ha
    rw [List.mem_singleton.mp hb]
    exact hnew p hp
  · exact h

theorem inv_regRemove {s : State} (h : s.Inv) (d : Byte) : (regRemove d s).Inv := by
  obtain ⟨hlen, hnodup⟩ : RegistryOk s := h.2.2.2.1
  unfold regRemove
  split
  · exact h
  · have hsub := List.eraseIdx_sublist s.registry ‹Nat›
    exact inv_registry h (hsub.length_le.trans hlen) (hnodup.sublist (hsub.map _))

theorem inv_regSetId {s : State} (h : s.Inv) (k : Nat) (d : Byte) : (regSetId k d s).Inv :=
  inv_registry_of_addrs h (map_modify_of_eq fun _ => rfl)

theorem inv_regSetDist {s : State} (h : s.Inv) (d : Byte) (v : Word) : (regSetDist d v s).Inv := by
  unfold regSetDist
  split
  · exact h
  · exact inv_registry_of_addrs h (map_modify_of_eq fun _ => rfl)

theorem inv_txRequest {s : State} (h : s.Inv) {kind : TxKind} (hkind : kind ≠ .none) (len : Nat) (mode : TxMode)
    (rxAfter : Bool) (tmo : Word) : (txRequest kind len mode rxAfter tmo s).Inv := by
  obtain ⟨hparams, hmem, hcodec, hreg, hses, hround, hseq, hresp, hirq, -, habort⟩ := h
  exact ⟨hparams, hmem, hcodec, hreg, hses, hround, hseq, hresp, hirq, fun _ => hkind, habort⟩

theorem inv_recordAbort {s : State} (h : s.Inv) (c : AbortCause) (p : Option Byte) : (recordAbort c p s).Inv := by
  obtain ⟨hparams, hmem, hcodec, hreg, hses, hround, hseq, hresp, hirq, hkind, -⟩ := h
  refine ⟨hparams, hmem, hcodec, hreg, hses, hround, hseq, hresp, hirq, hkind, fun hp => ?_⟩
  cases p with
  | none => rfl
  | some _ => nomatch hp

/-! ## The round and the sequencer state -/

/-- A restart of the round keeps the invariant, whatever legal session and sequencer state it starts with: outside COORD the
coordinator is idle without backoff, and backoff is only in IDLE. -/
theorem inv_restart {s : State} (h : s.Inv) {v : Session} {r : Role} {c : CoordState} {b : Bool}
    (hv : SessionOk { s with session := v }) (hone : v.nodeCount = 1 → v.targets.length ≤ 1)
    (hrole : r ≠ .coord → c = .idle ∧ b = false) (hb : b = true → c = .idle) :
    State.Inv { roundReset s with
      session := v, role := r, status := { (roundReset s).status with coordState := c, backoff := b } } := by
  obtain ⟨hparams, hmem, hcodec, hreg, -, -, -, -, hflags⟩ := h
  have hcount : 0 + 1 < v.nodeCount.toNat ∨ v.nodeCount = 1 ∧ 0 ≤ 1 := by
    have hnodes : 1 ≤ v.nodeCount.toNat := hv.2.1
    by_cases h1 : v.nodeCount = 1
    · exact .inr ⟨h1, Nat.zero_le 1⟩
    · have : v.nodeCount.toNat ≠ 1 := fun e => h1 (BitVec.eq_of_toNat_eq e)
      exact .inl (by omega)
  exact ⟨hparams, hmem, hcodec, hreg, hv,
    ⟨Nat.zero_le _, List.length_replicate, List.length_replicate, List.length_replicate⟩,
    ⟨hrole, fun _ => rfl, fun _ _ => rfl, fun _ => rfl, hb, fun _ _ => ⟨rfl, rfl⟩⟩, ⟨fun _ => hcount, hone⟩, hflags⟩

/-- The restart within the session. -/
theorem inv_restart_round {s : State} (h : s.Inv) {r : Role} {c : CoordState} {b : Bool}
    (hrole : r ≠ .coord → c = .idle ∧ b = false) (hb : b = true → c = .idle) :
    State.Inv { roundReset s with
      role := r, status := { (roundReset s).status with coordState := c, backoff := b } } := by
  obtain ⟨-, -, -, -, hses, -, -, ⟨-, hone⟩, -⟩ := id h
  exact inv_restart h (v := s.session) hses hone hrole hb

theorem inv_roundReset {s : State} (h : s.Inv) : (roundReset s).Inv := by
  obtain ⟨-, -, -, -, -, -, ⟨hcoord, -, -, -, hbackoff, -⟩, -⟩ := id h
  exact inv_restart_round h hcoord hbackoff

theorem inv_abort {s : State} (h : s.Inv) (c : AbortCause) (p : Option Byte) : (abort c p s).Inv := by
  unfold abort
  dsimp only
  split
  next hrole =>
    exact inv_recordAbort (inv_restart_round h (r := s.role) (b := s.status.backoff) (absurd hrole) fun _ => rfl) c p
  next => exact inv_recordAbort (inv_roundReset h) c p

theorem length_targetOrder_one (own init : Byte) : (targetOrder own init 1).length ≤ 1 := by
  unfold targetOrder
  split <;> simp

theorem inv_deriveSession {s : State} (h : s.Inv) (own init : Byte) {n : Byte} (hn : totalLegal n s = true) :
    (deriveSession own init n s).Inv := by
  obtain ⟨-, -, -, -, -, -, ⟨hcoord, -, -, -, hbackoff, -⟩, -⟩ := id h
  refine inv_restart h ⟨List.length_take_le _ _, by simpa [totalLegal] using hn⟩ (fun hone => ?_) hcoord hbackoff
  dsimp only at hone
  subst hone
  exact (List.length_take_le' _ _).trans (length_targetOrder_one own init)

/-- In COORD at position 0 every sequencer state that keeps backoff to IDLE is allowed. -/
theorem inv_coordState {s : State} (h : s.Inv) (hrole : s.role = .coord) (hpos : s.round.pos = 0) {c : CoordState}
    (hb : s.status.backoff = true → c = .idle) : State.Inv { s with status.coordState := c } := by
  obtain ⟨hparams, hmem, hcodec, hreg, hses, hround, ⟨-, hphase, -, -, -, hinit⟩, hrest⟩ := h
  exact ⟨hparams, hmem, hcodec, hreg, hses, hround,
    ⟨absurd hrole, hphase, fun _ _ => hpos, fun _ => hpos, hb, hinit⟩, hrest⟩

theorem inv_backoff {s : State} (h : s.Inv) (hrole : s.role = .coord) (hidle : s.status.coordState = .idle) :
    State.Inv { s with status.backoff := true } := by
  obtain ⟨hparams, hmem, hcodec, hreg, hses, hround, ⟨-, hphase, hpos, hcomplete, -, hinit⟩, hrest⟩ := h
  exact ⟨hparams, hmem, hcodec, hreg, hses, hround,
    ⟨absurd hrole, hphase, hpos, hcomplete, fun _ => hidle, hinit⟩, hrest⟩

theorem inv_backoff_end {s : State} (h : s.Inv) : State.Inv { s with status.backoff := false } := by
  obtain ⟨hparams, hmem, hcodec, hreg, hses, hround, ⟨hcoord, hphase, hpos, hcomplete, -, hinit⟩, hrest⟩ := h
  exact ⟨hparams, hmem, hcodec, hreg, hses, hround,
    ⟨fun hr => ⟨(hcoord hr).1, rfl⟩, hphase, hpos, hcomplete, nofun, hinit⟩, hrest⟩

/-- The coordinator's next phase begins at position 0. -/
theorem inv_coordPhase {s : State} (h : s.Inv) (hrole : s.role = .coord) (hb : s.status.backoff = false)
    (c : CoordState) : State.Inv { s with round.pos := 0, status.coordState := c } := by
  obtain ⟨hparams, hmem, hcodec, hreg, hses, ⟨-, hlens⟩, ⟨-, hphase, -⟩, ⟨-, hone⟩, hrest⟩ := h
  exact ⟨hparams, hmem, hcodec, hreg, hses, ⟨Nat.zero_le _, hlens⟩,
    ⟨absurd hrole, hphase, fun _ _ => rfl, fun _ => rfl, by simp [hb], by simp [hrole]⟩, ⟨by simp [hrole], hone⟩, hrest⟩

/-! ## The coordinator -/

/-- The coordinator awaits ACKs or FINALs. -/
def Awaiting (s : State) : Prop :=
  s.role = .coord ∧ (s.status.coordState = .awaitAcks ∨ s.status.coordState = .awaitFinals)

theorem Awaiting.ne_idle {s : State} (h : Awaiting s) : s.status.coordState ≠ .idle := by
  rcases h.2 with e | e <;> simp [e]

theorem Awaiting.ne_complete {s : State} (h : Awaiting s) : s.status.coordState ≠ .complete := by
  rcases h.2 with e | e <;> simp [e]

/-- There is no backoff in a round. -/
theorem Awaiting.backoff_eq_false {s : State} (ha : Awaiting s) (h : s.Inv) : s.status.backoff = false := by
  obtain ⟨-, -, -, -, -, -, ⟨-, -, -, -, hbackoff, -⟩, -⟩ := h
  exact Bool.eq_false_iff.mpr fun hb => ha.ne_idle (hbackoff hb)

theorem awaiting_take {s : State} (h : Awaiting s) : Awaiting (take s) := by
  simpa [Awaiting] using h

theorem pos_succ_toNat {s : State} (h : s.Inv) : (s.round.pos + 1).toNat = s.round.pos.toNat + 1 := by
  obtain ⟨⟨-, hmax, -⟩, -, -, -, -, ⟨hpos, -⟩, -⟩ := h
  have : s.params.cap ≤ 62 := by unfold Params.cap; omega
  rw [BitVec.toNat_add]
  exact Nat.mod_eq_of_lt (by simp; omega)

/-- An accepted frame of the target whose turn it is moves a coordinator's round one position on. -/
theorem inv_nextPosition {s : State} (h : s.Inv) (ha : Awaiting s) (hturn : s.round.pos.toNat < tgtCount s) {q : Round}
    (hpos : q.pos = s.round.pos + 1) (hrt : q.rt.length = s.round.rt.length)
    (hrd1 : q.rd1.length = s.round.rd1.length) (hrd2 : q.rd2.length = s.round.rd2.length) :
    State.Inv { s with round := q } := by
  have hq : q.pos.toNat = s.round.pos.toNat + 1 := by rw [hpos, pos_succ_toNat h]
  obtain ⟨hparams, hmem, hcodec, hreg, hses, ⟨-, ht, h1, h2⟩, ⟨-, hphase, -, -, hb, -⟩, ⟨-, hone⟩, hrest⟩ := h
  have hcap : tgtCount s ≤ s.params.cap := hses.1
  have hnresp : s.role ≠ .resp := by simp [ha.1]
  exact ⟨hparams, hmem, hcodec, hreg, hses,
    ⟨by show q.pos.toNat ≤ s.params.cap; omega, hrt.trans ht, hrd1.trans h1, hrd2.trans h2⟩,
    ⟨absurd ha.1, hphase, fun _ => (absurd · ha.ne_idle), (absurd · ha.ne_complete), hb, (absurd · hnresp)⟩,
    ⟨(absurd · hnresp), hone⟩, hrest⟩

theorem lt_tgtCount_of_turnTarget {s : State} {p : Byte} (h : turnTarget s = some p) :
    s.round.pos.toNat < tgtCount s := by
  unfold turnTarget at h
  split at h
  · assumption
  · nomatch h

theorem length_coordFrame_le (fc : FuncCode) (s : State) : (coordFrame fc s).length ≤ frameMax := by
  simp [coordFrame, frameMax]

theorem inv_sendRange {s : State} (h : s.Inv) (ha : Awaiting s) : (sendRange s).Inv :=
  inv_coordPhase (inv_txRequest (inv_storeC h (length_coordFrame_le .range s)) (by simp) _ _ _ _) ha.1
    (ha.backoff_eq_false h) .awaitFinals

theorem inv_acceptAck {s : State} (h : s.Inv) (ha : Awaiting s) (hturn : s.round.pos.toNat < tgtCount s) :
    (acceptAck s).Inv := by
  have hnext : (storeAck s).Inv := inv_nextPosition h ha hturn rfl List.length_set List.length_set rfl
  have ha' : Awaiting (storeAck s) := ha
  rw [acceptAck_eq]
  split
  · exact inv_sendRange hnext ha'
  · exact hnext

/-- A commit writes distances only (44_coordinator.md R217). -/
theorem inv_commitRound {s : State} (h : s.Inv) (ha : Awaiting s) : (commitRound s).Inv := by
  obtain ⟨heq, hmap, -⟩ := foldl_regSetDist_spec (targetAt s) (targetDist s) (roundIndices s) s
  unfold commitRound
  dsimp only at heq hmap ⊢
  generalize (roundIndices s).foldl _ s = t at heq hmap ⊢
  have haddrs : t.registry.map Peer.addr = s.registry.map Peer.addr := by
    have hfst := congrArg (List.map Prod.fst) hmap
    rw [List.map_map, List.map_map] at hfst
    exact hfst
  have ht : t.Inv := by
    rw [heq]
    exact inv_registry_of_addrs h haddrs
  have hrole : t.role = .coord := by rw [heq]; exact ha.1
  have hb : t.status.backoff = false := by rw [heq]; exact ha.backoff_eq_false h
  exact (inv_coordPhase ht hrole hb .complete :)

theorem inv_acceptFinal {s : State} (h : s.Inv) (ha : Awaiting s) (hturn : s.round.pos.toNat < tgtCount s) :
    (acceptFinal s).Inv := by
  have hnext : (storeFinal s).Inv := inv_nextPosition h ha hturn rfl rfl rfl List.length_set
  have ha' : Awaiting (storeFinal s) := ha
  rw [acceptFinal_eq, computeRound]
  split
  · split
    · exact inv_commitRound hnext ha'
    · exact inv_abort hnext .implausibleDistance none
  · exact hnext

theorem inv_awaitMessage {s : State} (h : s.Inv) (ha : Awaiting s) {e : FuncCode} {accept : State → State}
    (haccept : ∀ u, u.Inv → Awaiting u → u.round.pos.toNat < tgtCount u → (accept u).Inv) :
    (awaitMessage e accept s).Inv := by
  have ht := inv_take h
  rcases awaitMessage_cases e accept s with e | e | e | e | ⟨-, hturn, e⟩ <;> rw [e]
  · exact ht
  · exact inv_abort (inv_regAdd ht _) _ _
  · exact inv_abort ht _ _
  · exact inv_abort ht _ _
  · exact haccept _ ht (awaiting_take ha) (lt_tgtCount_of_turnTarget hturn)

theorem inv_awaitError {s : State} (h : s.Inv) (hrole : s.role = .coord) : (awaitError s).Inv := by
  unfold awaitError
  dsimp only
  split
  next p _ =>
    have hevict := inv_regRemove (s := { s with status.errPending := false }) h p
    exact inv_backoff (inv_abort (s := { regRemove p _ with status.discReq := true }) hevict _ _)
      (by simp [hrole]) (by simp [hrole])
  next =>
    exact inv_backoff (inv_abort (s := { s with status.errPending := false }) h _ _) (by simp [hrole]) (by simp [hrole])

theorem inv_awaitStep {s t : State} (h : s.Inv) (ha : Awaiting s) {e : FuncCode} {accept : State → State}
    (haccept : ∀ u, u.Inv → Awaiting u → u.round.pos.toNat < tgtCount u → (accept u).Inv)
    (hstep : awaitStep e accept s = some t) : t.Inv := by
  obtain ⟨-, ⟨-, rfl⟩ | ⟨-, -, rfl⟩⟩ := awaitStep_cases hstep
  · exact inv_awaitMessage h ha haccept
  · exact inv_awaitError h ha.1

theorem inv_startRound {s : State} (h : s.Inv) (hrole : s.role = .coord) (hb : s.status.backoff = false) :
    (startRound s).Inv :=
  inv_coordState
    (inv_txRequest (inv_storeC (inv_roundReset h) (length_coordFrame_le .poll _)) (by simp) _ _ _ _) hrole rfl (by simp [hb])

theorem inv_drainMessage {s : State} (h : s.Inv) : (drainMessage s).Inv := by
  unfold drainMessage
  dsimp only
  split
  · exact inv_regAdd (inv_take h) _
  · exact inv_take h

theorem inv_idleStep {s t : State} (h : s.Inv) (hrole : s.role = .coord) (hstep : idleStep s = some t) : t.Inv := by
  obtain ⟨-, ⟨-, rfl⟩ | ⟨-, -, rfl⟩ | ⟨-, -, hb, -, rfl⟩⟩ := idleStep_cases hstep
  · exact inv_drainMessage h
  · exact h
  · exact inv_startRound h hrole hb

theorem inv_coordStep {s t : State} (h : s.Inv) (hrole : s.role = .coord) (hstep : coordStep s = some t) : t.Inv := by
  rcases coordStep_cases s with ⟨hc, e⟩ | ⟨-, e⟩ | ⟨hc, e⟩ | ⟨hc, e⟩ <;> rw [e] at hstep
  · obtain ⟨-, -, -, -, -, -, ⟨-, -, -, hcomplete, -⟩, -⟩ := id h
    cases hstep
    exact inv_coordState h hrole (hcomplete hc) fun _ => rfl
  · exact inv_idleStep h hrole hstep
  · exact inv_awaitStep h ⟨hrole, .inl hc⟩ (fun _ => inv_acceptAck) hstep
  · exact inv_awaitStep h ⟨hrole, .inr hc⟩ (fun _ => inv_acceptFinal) hstep

/-! ## The responder -/

/-- An arrival of the expected source at position `p` leaves the count below the last position, or ends the phase: at a later
position than 0 the source is a target, so a session of one node is past none. -/
theorem inv_advance {s : State} (h : s.Inv) (hrole : s.role = .resp) (hinit : s.session.initId ≠ 0)
    (hturn : s.round.pos = 0 ∨ s.round.pos.toNat < tgtCount s) : (advance s).Inv := by
  have hsucc := pos_succ_toNat h
  have hreset := inv_roundReset h
  obtain ⟨hparams, hmem, hcodec, hreg, hses, ⟨-, hlens⟩, ⟨hcoord, hphase, -, -, hb, -⟩, ⟨hcount, hone⟩, hflags⟩ := h
  have hncoord : s.role ≠ .coord := by simp [hrole]
  have hmax : 2 ≤ s.params.maxNodes := hparams.1
  have hcap : s.params.cap + 1 = s.params.maxNodes := by unfold Params.cap; omega
  have hturn' : s.round.pos.toNat = 0 ∨ s.round.pos.toNat < s.session.targets.length :=
    hturn.imp (congrArg BitVec.toNat) id
  have hroom : s.round.pos.toNat + 1 < s.session.nodeCount.toNat
      ∨ (s.session.nodeCount = 1 ∧ s.round.pos.toNat = 0) :=
    (hcount hrole).imp_right fun ⟨h1, _⟩ => ⟨h1, by have := hone h1; omega⟩
  unfold advance endPhase
  dsimp only
  split
  next hlast =>
    have htwo : 0 + 1 < s.session.nodeCount.toNat := by
      simp only [atLastPos, hsucc, decide_eq_true_eq] at hlast
      omega
    split
    · exact ⟨hparams, hmem, hcodec, hreg, hses, ⟨Nat.zero_le _, hlens⟩,
        ⟨hcoord, absurd hrole, fun _ _ => rfl, fun _ => rfl, hb, fun _ => (absurd · hinit)⟩,
        ⟨fun _ => .inl htwo, hone⟩, hflags⟩
    · exact hreset
  next hlast =>
    have hne : s.round.pos.toNat + 1 + 1 ≠ s.session.nodeCount.toNat := by
      simpa only [atLastPos, hsucc, decide_eq_true_eq] using hlast
    have hnodes := hses.2.2
    refine ⟨hparams, hmem, hcodec, hreg, hses, ⟨?_, hlens⟩,
      ⟨hcoord, hphase, (absurd hrole ·), fun hc => ?_, hb, fun _ => (absurd · hinit)⟩, ⟨fun _ => ?_, hone⟩, hflags⟩
    · show (s.round.pos + 1).toNat ≤ s.params.cap
      rcases hroom with hlt | ⟨-, h0⟩ <;> omega
    · exact absurd (hc.symm.trans (hcoord hncoord).1) (by simp)
    · show (s.round.pos + 1).toNat + 1 < s.session.nodeCount.toNat
        ∨ s.session.nodeCount = 1 ∧ (s.round.pos + 1).toNat ≤ 1
      exact hroom.imp (by omega) fun ⟨h1, h0⟩ => ⟨h1, by omega⟩

theorem inv_stampPhase {s : State} (h : s.Inv) : (stampPhase s).Inv := by
  unfold stampPhase
  split <;> exact h

theorem inv_reply {s : State} (h : s.Inv) : (reply s).Inv := by
  have hsched : (scheduleReply s).Inv := h
  rw [reply_eq]
  exact inv_txRequest (inv_storeC hsched (length_replyFrame_le _)) (replyKind_ne_none s) _ _ _ _

theorem stampPhase_eq (s : State) : stampPhase s = { s with stamps := (stampPhase s).stamps } := by
  unfold stampPhase
  split <;> rfl

theorem inv_arrival {s : State} (h : s.Inv) (hrole : s.role = .resp) (hinit : s.session.initId ≠ 0)
    (hturn : s.round.pos = 0 ∨ s.round.pos.toNat < tgtCount s) : (arrival s).Inv := by
  have hst := inv_stampPhase h
  rcases arrival_cases s with e | e <;> rw [e]
  · rw [stampPhase_eq] at hst ⊢
    exact inv_advance (inv_reply hst) hrole hinit hturn
  · rw [stampPhase_eq] at hst ⊢
    exact inv_advance hst hrole hinit hturn

/-- An aborted round has no initiator's phase left, so the responder may forget the initiator (45_responder.md R239). -/
theorem inv_mismatch {s : State} (h : s.Inv) : (mismatch s).Inv := by
  obtain ⟨hparams, hmem, hcodec, hreg, hses, hround, ⟨hcoord, hphase, hpos, hcomplete, hb, -⟩, hrest⟩ :=
    inv_abort h .respMismatch none
  have hcleared : (abort .respMismatch none s).round.pos = 0 ∧ (abort .respMismatch none s).status.respPhase = .poll := by
    simp [Round.cleared]
  exact ⟨hparams, hmem, hcodec, hreg, hses, hround, ⟨hcoord, hphase, hpos, hcomplete, hb, fun _ _ => hcleared⟩, hrest⟩

theorem inv_blinkReply {s : State} (h : s.Inv) : (blinkReply s).Inv :=
  inv_txRequest (inv_storeC (s := { s with draws := s.draws + 1 }) h (by simp [frameMax])) (by simp) _ _ _ _

theorem totalLegal_of_acceptedConfig {s : State} {t : ConfigTriple} (h : acceptedConfig s = some t) :
    totalLegal t.total s = true := by
  unfold acceptedConfig at h
  split at h
  · exact (Option.filter_eq_some_iff.mp h).2
  · nomatch h

theorem inv_onConfig {s : State} (h : s.Inv) : (onConfig s).Inv := by
  unfold onConfig
  split
  next t ht =>
    have hlegal := totalLegal_of_acceptedConfig ht
    dsimp only
    split
    · exact inv_deriveSession (inv_recordAbort h _ _) _ _ hlegal
    · exact inv_deriveSession h _ _ hlegal
  next => exact h

theorem inv_onReset {s : State} (h : s.Inv) : (onReset s).Inv := by
  unfold onReset
  dsimp only
  split
  · exact (inv_roundReset (inv_abort h _ _) :)
  · exact (inv_roundReset h :)

theorem inv_onStranger {s : State} (h : s.Inv) : (onStranger s).Inv := by
  unfold onStranger
  split
  · exact inv_blinkReply (inv_mismatch h)
  · exact inv_blinkReply (inv_roundReset h)

theorem pos_eq_zero_of_not_respActive {s : State} (h : ¬respActive s = true) : s.round.pos = 0 := by
  rw [respActive_iff, not_or, Nat.not_lt, Nat.le_zero] at h
  exact BitVec.eq_of_toNat_eq h.2

theorem inv_onInitiatorPoll {s : State} (h : s.Inv) (hrole : s.role = .resp) (hinit : s.session.initId ≠ 0) :
    (onInitiatorPoll s).Inv := by
  unfold onInitiatorPoll
  split
  · exact inv_arrival (inv_abort h _ _) (by simpa using hrole) (by simpa using hinit) (.inl (by simp [Round.cleared]))
  next hactive => exact inv_arrival h hrole hinit (.inl (pos_eq_zero_of_not_respActive hactive))

/-- POLL and RANGE are expected at position 0 only (45_responder.md R234). -/
theorem pos_eq_zero_of_expectedCode_range {s : State} (h : expectedCode s = .range) : s.round.pos = 0 := by
  unfold expectedCode at h
  split at h <;> split at h <;> first | assumption | nomatch h

theorem inv_onInitiatorRange {s : State} (h : s.Inv) (hrole : s.role = .resp) (hinit : s.session.initId ≠ 0) :
    (onInitiatorRange s).Inv := by
  unfold onInitiatorRange
  split
  next hcode => exact inv_arrival h hrole hinit (.inl (pos_eq_zero_of_expectedCode_range hcode))
  split
  · exact inv_abort h _ _
  · exact h

/-- A responder in a phase has an initiator. -/
theorem initId_ne_zero_of_respActive {s : State} (h : s.Inv) (hrole : s.role = .resp) (ha : respActive s = true) :
    s.session.initId ≠ 0 := by
  obtain ⟨-, -, -, -, -, -, ⟨-, -, -, -, -, hinit⟩, -⟩ := h
  intro h0
  obtain ⟨hpos, hphase⟩ := hinit hrole h0
  simp [respActive, hpos, hphase] at ha

theorem turn_of_expectedSource {s : State} {p : Byte} (h : expectedSource s = some p) :
    s.round.pos = 0 ∨ s.round.pos.toNat < tgtCount s := by
  unfold expectedSource at h
  split at h
  · exact .inl ‹_›
  · exact .inr (lt_tgtCount_of_turnTarget h)

theorem inv_onReplyFrame {s : State} (h : s.Inv) (hrole : s.role = .resp) (fc : FuncCode) : (onReplyFrame fc s).Inv := by
  unfold onReplyFrame
  split
  · exact h
  split
  · exact inv_mismatch h
  split
  · exact inv_abort h _ _
  next hactive hsource _ =>
    have ha : respActive s = true := by simpa using hactive
    exact inv_arrival h hrole (initId_ne_zero_of_respActive h hrole ha) (turn_of_expectedSource (not_not.mp hsource))

theorem inv_onFrame {s : State} (h : s.Inv) (hrole : s.role = .resp) : (onFrame s).Inv := by
  rcases onFrame_cases s with e | e | e | e | ⟨hfrom, e | e⟩ | e | e <;> rw [e]
  · exact h
  · exact inv_onConfig h
  · exact inv_onReset h
  · exact inv_onStranger h
  · exact inv_onInitiatorPoll h hrole (initId_ne_zero_of_not_fromStranger hfrom)
  · exact inv_onInitiatorRange h hrole (initId_ne_zero_of_not_fromStranger hfrom)
  · exact inv_onReplyFrame h hrole .ack
  · exact inv_onReplyFrame h hrole .final

theorem inv_respStep {s t : State} (h : s.Inv) (hrole : s.role = .resp) (hstep : respStep s = some t) : t.Inv := by
  obtain ⟨-, ⟨-, rfl⟩ | ⟨-, -, rfl⟩⟩ := respStep_cases hstep
  · rcases respMessage_eq s with e | e <;> rw [e]
    · exact inv_take h
    · exact inv_onFrame (inv_take h) (by simpa using hrole)
  · exact h

theorem inv_sequencerStep {s t : State} (h : s.Inv) (hstep : sequencerStep s = some t) : t.Inv := by
  obtain ⟨-, ⟨hrole, hc⟩ | ⟨hrole, hr⟩⟩ := sequencerStep_cases hstep
  · exact inv_coordStep h hrole hc
  · exact inv_respStep h hrole hr

/-! ## Commands, host accesses and the other agents -/

/-- The registry and its coordinator make at most MAX_NODES nodes (42_registry.md R150, 43_session.md R176). -/
theorem totalLegal_configTotal {s : State} (h : s.Inv) : totalLegal (configTotal s) s = true := by
  obtain ⟨⟨hmin, hmax, -⟩, -, -, ⟨hlen, -⟩, -⟩ := h
  have hcap : s.params.cap + 1 = s.params.maxNodes := by unfold Params.cap; omega
  have hval : (configTotal s).toNat = s.registry.length + 1 := by
    unfold configTotal regCount
    rw [BitVec.toNat_ofNat]
    exact Nat.mod_eq_of_lt (by omega)
  unfold totalLegal
  rw [hval]
  exact decide_eq_true (by omega)

theorem inv_sendConfig {s : State} (h : s.Inv) (slot : Byte) : (sendConfig slot s).Inv :=
  inv_deriveSession
    (inv_txRequest (inv_storeC (inv_regSetId h _ _) (by simp [frameMax])) (by simp) _ _ _ _) _ _
    (totalLegal_configTotal h)

theorem inv_commandEffect {s u : State} (h : s.Inv) (he : CommandEffect s u) : u.Inv := by
  cases he with
  | keep => exact h
  | store f hlen => exact inv_storeC h hlen
  | config c => exact h
  | add x => exact inv_regAdd h x
  | remove d => exact inv_regRemove h d
  | setId k d => exact inv_regSetId h k d
  | setDist d v => exact inv_regSetDist h d v
  | session own init total hlegal => exact inv_deriveSession h own init hlegal
  | sendConfig slot => exact inv_sendConfig h slot
  | transmit len mode rxAfter tmo => exact inv_txRequest h (by simp) len mode rxAfter tmo
  | receive w => exact h

theorem inv_commanded {s t : State} (h : s.Inv) (hc : Commanded s t) : t.Inv := by
  obtain ⟨u, c, he, rfl⟩ := hc
  exact (inv_commandEffect h he :)

theorem inv_writeCtrl {s : State} (h : s.Inv) (v : Word) : (writeCtrl v s).Inv := by
  have hchange : ∀ e r, (changeCtrl e r s).Inv := fun e r => by
    have hrestart : ∀ u : State, u.Inv →
        State.Inv { roundReset u with
          enable := e, role := r, status := { (roundReset u).status with coordState := .idle, backoff := false } } :=
      fun u hu => inv_restart_round hu (r := r) (fun _ => ⟨rfl, rfl⟩) nofun
    unfold changeCtrl
    dsimp only
    split <;> split
    · exact (hrestart _ (inv_recordAbort h .disabled none) :)
    · exact (hrestart s h :)
    · exact (hrestart _ (inv_recordAbort h .disabled none) :)
    · exact (hrestart s h :)
  unfold writeCtrl
  dsimp only
  split
  · exact h
  · exact hchange _ _

/-- `IRQ_EN` bit 2 is hardwired 0 (10_state.md R24). -/
theorem getLsbD_irqEnMasked (b : Byte) : (irqEnMasked b).getLsbD 2 = false := by
  simp [irqEnMasked]

theorem inv_irqEn {s : State} (h : s.Inv) (b : Byte) : State.Inv { s with irqEn := irqEnMasked b } := by
  obtain ⟨hparams, hmem, hcodec, hreg, hses, hround, hseq, hresp, -, hkind, habort⟩ := h
  exact ⟨hparams, hmem, hcodec, hreg, hses, hround, hseq, hresp, getLsbD_irqEnMasked b, hkind, habort⟩

/-- Beside `CTRL` and `IRQ_EN` no register a host writes is one the invariant reads. -/
theorem inv_writeReg {s : State} (h : s.Inv) (r : HostReg) (v : Word) : (writeReg r v s).Inv := by
  cases r with
  | ctrl => exact inv_writeCtrl h v
  | irqEn => exact inv_irqEn h _
  | inlen =>
    unfold writeReg
    dsimp only
    split <;> exact h
  | _ => exact h

theorem locate_eq_inbuf {off a : Nat} (h : locate off = .inbuf a) : a = off ∧ 0x100 ≤ off ∧ off < 0x180 := by
  unfold locate at h
  split at h
  · split at h <;> nomatch h
  split at h
  · cases h
    exact ⟨rfl, by omega, by assumption⟩
  all_goals (repeat' split at h) <;> nomatch h

theorem inv_writeLoc {s : State} (h : s.Inv) {off : Nat} (haligned : off % 4 = 0) (v : Word) :
    (writeLoc (locate off) v s).Inv := by
  cases hl : locate off with
  | reg r => exact inv_writeReg h r v
  | inbuf a =>
    obtain ⟨rfl, hlo, hhi⟩ := locate_eq_inbuf hl
    unfold writeLoc
    dsimp only
    split
    · exact inv_store_inbuf h _ hlo (by unfold cbufBase; omega)
    · exact h
  | _ => exact h

theorem inv_hostEffect {s t : State} (h : s.Inv) (he : HostEffect s t) : t.Inv := by
  cases he with
  | write off v haligned => exact inv_writeLoc h haligned v
  | command hc => exact inv_commanded h hc
  | _ => exact h

theorem inv_onRxGood {s : State} (h : s.Inv) (bytes : List Byte) (len : BitVec 16) (ts : Stamp) :
    (onRxGood bytes len ts s).Inv := by
  unfold onRxGood
  dsimp only
  split <;> split
  · exact inv_store_inbuf h _ le_rfl le_rfl
  · exact inv_store_inbuf h _ le_rfl le_rfl
  · exact h
  · exact h

theorem inv_captureEvent {s : State} (h : s.Inv) (e : RadioEvent) : (captureEvent e s).Inv := by
  have herr : ∀ c, (onRxErr c s).Inv := fun c => by
    unfold onRxErr
    dsimp only
    split <;> exact h
  cases e with
  | rxGood bytes len ts => exact inv_onRxGood h bytes len ts
  | rxError => exact herr .rxError
  | rxTimeout => exact herr .rxTimeout
  | txDone ts =>
    obtain ⟨hparams, hmem, hcodec, hreg, hses, hround, hseq, hresp, hirq, -, habort⟩ := id h
    show (onTxDone ts s).Inv
    unfold onTxDone
    split
    · exact ⟨hparams, hmem, hcodec, hreg, hses, hround, hseq, hresp, hirq, nofun, habort⟩
    · exact h

theorem inv_backoffStep {s t : State} (h : s.Inv) (hstep : backoffStep s = some t) : t.Inv := by
  unfold backoffStep at hstep
  split at hstep
  · cases hstep
    exact inv_backoff_end h
  · nomatch hstep

/-- An agent without a step leaves the state as it is. -/
theorem inv_getD {s : State} (h : s.Inv) {o : Option State} (ho : ∀ t, o = some t → t.Inv) : (o.getD s).Inv := by
  cases o with
  | none => exact h
  | some t => exact ho t rfl

/-- Every action keeps the invariant. -/
theorem inv_act {a : Action} {s t : State} (h : s.Inv) (hact : act a s = .next t) : t.Inv := by
  cases a with
  | host a => exact inv_hostEffect h (hostEffect_of_hostAccess hact)
  | bus a => exact inv_hostEffect h (hostEffect_of_busAccess hact)
  | radio e => cases hact; exact inv_captureEvent h e
  | sequencer => cases hact; exact inv_getD h fun _ => inv_sequencerStep h
  | backoffTimer => cases hact; exact inv_getD h fun _ => inv_backoffStep h
  | blockReset => cases hact; exact inv_resetOf h.1

/-- Taking the next action off the schedule, or drawing a free one, keeps the invariant. -/
theorem inv_nextAction {s : State} (h : s.Inv) : (nextAction s).2.Inv := by
  unfold nextAction
  split <;> exact h

/-! ## The statements -/

/-- Settles O6: a step is an action taken from the state that waits for it, and every action keeps the invariant. -/
theorem stepKeepsInvariant : Obligations.StepKeepsInvariant := fun _ _ h hstep => inv_act (inv_nextAction h) hstep

/-- Settles O7: every clause of the invariant holds of the reset values. -/
theorem resetHasInvariant : Obligations.ResetHasInvariant :=
  ⟨fun _ hp => inv_resetOf hp, inv_resetOf (by decide)⟩

end Sys2Proof.Machine
end

section
/-! PROOFS. The radio log: every action but the block reset extends it, by one transmission at most and by none while one is
outstanding. -/

namespace Sys2Proof.Machine

/-! ## Radio requests of a part of a step -/

/-- From `s` to `t` the radio was asked for no transmission, and none was completed. -/
def RadioQuiet (s t : State) : Prop :=
  ∃ l, t.out = s.out ++ l ∧ txCount l = 0 ∧ t.status.txPending = s.status.txPending

/-- From `s` to `t` the radio was asked for exactly one transmission, which is outstanding. -/
def Transmits (s t : State) : Prop :=
  ∃ l, t.out = s.out ++ l ∧ txCount l = 1 ∧ t.status.txPending = true

theorem txCount_append (l m : List RadioRequest) : txCount (l ++ m) = txCount l + txCount m := List.countP_append

theorem radioQuiet_of_eq {s t : State} (hout : t.out = s.out) (hpend : t.status.txPending = s.status.txPending) :
    RadioQuiet s t := ⟨[], by rw [hout, List.append_nil], rfl, hpend⟩

theorem radioQuiet_refl (s : State) : RadioQuiet s s := radioQuiet_of_eq rfl rfl

theorem radioQuiet_rxOn (w : Word) (s : State) : RadioQuiet s (rxOn w s) := ⟨[.rxon w], rfl, rfl, rfl⟩

theorem transmits_txRequest (kind : TxKind) (len : Nat) (mode : TxMode) (rxAfter : Bool) (tmo : Word) (s : State) :
    Transmits s (txRequest kind len mode rxAfter tmo s) := ⟨[.tx _ mode rxAfter tmo], rfl, rfl, rfl⟩

theorem RadioQuiet.trans {s t u : State} (h₁ : RadioQuiet s t) (h₂ : RadioQuiet t u) : RadioQuiet s u := by
  obtain ⟨l, hl, cl, pl⟩ := h₁
  obtain ⟨m, hm, cm, pm⟩ := h₂
  exact ⟨l ++ m, by rw [hm, hl, List.append_assoc], by rw [txCount_append, cl, cm], pm.trans pl⟩

theorem RadioQuiet.transmits {s t u : State} (h₁ : RadioQuiet s t) (h₂ : Transmits t u) : Transmits s u := by
  obtain ⟨l, hl, cl, -⟩ := h₁
  obtain ⟨m, hm, cm, pm⟩ := h₂
  exact ⟨l ++ m, by rw [hm, hl, List.append_assoc], by rw [txCount_append, cl, cm], pm⟩

theorem Transmits.quiet {s t u : State} (h₁ : Transmits s t) (h₂ : RadioQuiet t u) : Transmits s u := by
  obtain ⟨l, hl, cl, pl⟩ := h₁
  obtain ⟨m, hm, cm, pm⟩ := h₂
  exact ⟨l ++ m, by rw [hm, hl, List.append_assoc], by rw [txCount_append, cl, cm], pm.trans pl⟩

/-- From `s` to `t` the radio was asked for one transmission at most. -/
def AtMostOneTx (s t : State) : Prop := RadioQuiet s t ∨ Transmits s t

theorem RadioQuiet.atMostOneTx {s t u : State} (h₁ : RadioQuiet s t) (h₂ : AtMostOneTx t u) : AtMostOneTx s u :=
  h₂.imp h₁.trans h₁.transmits

/-! ## The shared operations -/

theorem radioQuiet_take (s : State) : RadioQuiet s (take s) := radioQuiet_of_eq (by simp) (by simp)

theorem radioQuiet_abort (c : AbortCause) (p : Option Byte) (s : State) : RadioQuiet s (abort c p s) :=
  radioQuiet_of_eq (by simp) (by simp)

theorem radioQuiet_roundReset (s : State) : RadioQuiet s (roundReset s) := radioQuiet_of_eq rfl rfl

theorem radioQuiet_regAdd (x : ExtAddr) (s : State) : RadioQuiet s (regAdd x s) := radioQuiet_of_eq (by simp) (by simp)

theorem radioQuiet_regRemove (d : Byte) (s : State) : RadioQuiet s (regRemove d s) :=
  radioQuiet_of_eq (by simp) (by simp)

theorem radioQuiet_deriveSession (own init n : Byte) (s : State) : RadioQuiet s (deriveSession own init n s) :=
  radioQuiet_of_eq rfl rfl

/-! ## The coordinator -/

theorem radioQuiet_armWindow (s : State) : RadioQuiet s (armWindow s) := radioQuiet_rxOn _ s

theorem transmits_sendRange (s : State) : Transmits s (sendRange s) := ⟨[.tx _ _ _ _], rfl, rfl, rfl⟩

theorem transmits_startRound (s : State) : Transmits s (startRound s) := ⟨[.tx _ _ _ _], rfl, rfl, rfl⟩

theorem atMostOneTx_acceptAck (s : State) : AtMostOneTx s (acceptAck s) := by
  have hstore : RadioQuiet s (storeAck s) := radioQuiet_of_eq rfl rfl
  rw [acceptAck_eq]
  split
  · exact .inr (hstore.transmits (transmits_sendRange _))
  · exact .inl (hstore.trans (radioQuiet_armWindow _))

theorem radioQuiet_commitRound (s : State) : RadioQuiet s (commitRound s) := by
  obtain ⟨heq, -⟩ := foldl_regSetDist_spec (targetAt s) (targetDist s) (roundIndices s) s
  unfold commitRound
  dsimp only at heq ⊢
  rw [heq]
  exact radioQuiet_of_eq rfl rfl

theorem radioQuiet_computeRound (s : State) : RadioQuiet s (computeRound s) := by
  unfold computeRound
  split
  · exact radioQuiet_commitRound s
  · exact radioQuiet_abort _ _ s

theorem atMostOneTx_acceptFinal (s : State) : AtMostOneTx s (acceptFinal s) := by
  have hstore : RadioQuiet s (storeFinal s) := radioQuiet_of_eq rfl rfl
  rw [acceptFinal_eq]
  split
  · exact .inl (hstore.trans (radioQuiet_computeRound _))
  · exact .inl (hstore.trans (radioQuiet_armWindow _))

theorem atMostOneTx_awaitMessage {e : FuncCode} {accept : State → State} (haccept : ∀ u, AtMostOneTx u (accept u))
    (s : State) : AtMostOneTx s (awaitMessage e accept s) := by
  have ht := radioQuiet_take s
  rcases awaitMessage_cases e accept s with e | e | e | e | ⟨-, -, e⟩ <;> rw [e]
  · exact .inl (ht.trans (radioQuiet_armWindow _))
  · exact .inl ((ht.trans (radioQuiet_regAdd _ _)).trans (radioQuiet_abort _ _ _))
  · exact .inl (ht.trans (radioQuiet_abort _ _ _))
  · exact .inl (ht.trans (radioQuiet_abort _ _ _))
  · exact ht.atMostOneTx (haccept _)

theorem radioQuiet_awaitError (s : State) : RadioQuiet s (awaitError s) := by
  unfold awaitError
  dsimp only
  split <;> exact radioQuiet_of_eq (by simp) (by simp)

theorem radioQuiet_drainMessage (s : State) : RadioQuiet s (drainMessage s) := by
  unfold drainMessage
  dsimp only
  split
  · exact (radioQuiet_take s).trans (radioQuiet_regAdd _ _)
  · exact radioQuiet_take s

/-! ## The responder -/

theorem radioQuiet_rearm (s : State) : RadioQuiet s (rearm s) := radioQuiet_rxOn 0 s

theorem radioQuiet_advance (s : State) : RadioQuiet s (advance s) := by
  unfold advance endPhase
  dsimp only
  split
  · split <;> exact radioQuiet_of_eq rfl rfl
  · exact radioQuiet_of_eq rfl rfl

theorem radioQuiet_stampPhase (s : State) : RadioQuiet s (stampPhase s) := by
  rw [stampPhase_eq]
  exact radioQuiet_of_eq rfl rfl

theorem transmits_reply (s : State) : Transmits s (reply s) := ⟨[.tx _ _ _ _], rfl, rfl, rfl⟩

theorem transmits_blinkReply (s : State) : Transmits s (blinkReply s) := ⟨[.tx _ _ _ _], rfl, rfl, rfl⟩

theorem atMostOneTx_arrival (s : State) : AtMostOneTx s (arrival s) := by
  have hst := radioQuiet_stampPhase s
  rcases arrival_cases s with e | e <;> rw [e]
  · exact .inr ((hst.transmits (transmits_reply _)).quiet (radioQuiet_advance _))
  · exact .inl ((hst.trans (radioQuiet_advance _)).trans (radioQuiet_rearm _))

theorem radioQuiet_mismatch (s : State) : RadioQuiet s (mismatch s) := radioQuiet_abort .respMismatch none s

theorem radioQuiet_onConfig (s : State) : RadioQuiet s (onConfig s) := by
  unfold onConfig
  split
  · dsimp only
    split <;> exact ⟨[.rxon 0], rfl, rfl, rfl⟩
  · exact radioQuiet_rearm s

theorem radioQuiet_onReset (s : State) : RadioQuiet s (onReset s) := by
  unfold onReset
  dsimp only
  split
  · exact ((radioQuiet_abort _ _ s).trans (radioQuiet_roundReset _)).trans (radioQuiet_rearm _)
  · exact (radioQuiet_roundReset s).trans (radioQuiet_rearm _)

theorem transmits_onStranger (s : State) : Transmits s (onStranger s) := by
  unfold onStranger
  split
  · exact (radioQuiet_mismatch s).transmits (transmits_blinkReply _)
  · exact (radioQuiet_roundReset s).transmits (transmits_blinkReply _)

theorem atMostOneTx_onInitiatorPoll (s : State) : AtMostOneTx s (onInitiatorPoll s) := by
  unfold onInitiatorPoll
  split
  · exact (radioQuiet_abort _ _ s).atMostOneTx (atMostOneTx_arrival _)
  · exact atMostOneTx_arrival s

theorem atMostOneTx_onInitiatorRange (s : State) : AtMostOneTx s (onInitiatorRange s) := by
  unfold onInitiatorRange
  split
  · exact atMostOneTx_arrival s
  split
  · exact .inl ((radioQuiet_abort _ _ s).trans (radioQuiet_rearm _))
  · exact .inl (radioQuiet_rearm s)

theorem atMostOneTx_onReplyFrame (fc : FuncCode) (s : State) : AtMostOneTx s (onReplyFrame fc s) := by
  unfold onReplyFrame
  split
  · exact .inl (radioQuiet_rearm s)
  split
  · exact .inl ((radioQuiet_mismatch s).trans (radioQuiet_rearm _))
  split
  · exact .inl ((radioQuiet_abort _ _ s).trans (radioQuiet_rearm _))
  · exact atMostOneTx_arrival s

theorem atMostOneTx_onFrame (s : State) : AtMostOneTx s (onFrame s) := by
  rcases onFrame_cases s with e | e | e | e | ⟨-, e | e⟩ | e | e <;> rw [e]
  · exact .inl (radioQuiet_rearm s)
  · exact .inl (radioQuiet_onConfig s)
  · exact .inl (radioQuiet_onReset s)
  · exact .inr (transmits_onStranger s)
  · exact atMostOneTx_onInitiatorPoll s
  · exact atMostOneTx_onInitiatorRange s
  · exact atMostOneTx_onReplyFrame .ack s
  · exact atMostOneTx_onReplyFrame .final s

/-! ## Every action -/

/-- From `s` to `t` the radio was asked for one transmission at most, and for none while one was outstanding; an outstanding one
did not complete. -/
def RadioStep (s t : State) : Prop := RadioQuiet s t ∨ (s.status.txPending = false ∧ Transmits s t)

theorem AtMostOneTx.radioStep {s t : State} (h : AtMostOneTx s t) (htx : s.status.txPending = false) : RadioStep s t :=
  h.imp_right fun ht => ⟨htx, ht⟩

theorem radioStep_awaitStep {e : FuncCode} {accept : State → State} (haccept : ∀ u, AtMostOneTx u (accept u))
    {s t : State} (h : awaitStep e accept s = some t) : RadioStep s t := by
  obtain ⟨htx, ⟨-, rfl⟩ | ⟨-, -, rfl⟩⟩ := awaitStep_cases h
  · exact (atMostOneTx_awaitMessage haccept s).radioStep htx
  · exact .inl (radioQuiet_awaitError s)

theorem radioStep_idleStep {s t : State} (h : idleStep s = some t) : RadioStep s t := by
  obtain ⟨htx, ⟨-, rfl⟩ | ⟨-, -, rfl⟩ | ⟨-, -, -, -, rfl⟩⟩ := idleStep_cases h
  · exact .inl (radioQuiet_drainMessage s)
  · exact .inl (radioQuiet_of_eq rfl rfl)
  · exact .inr ⟨htx, transmits_startRound s⟩

theorem radioStep_coordStep {s t : State} (h : coordStep s = some t) : RadioStep s t := by
  rcases coordStep_cases s with ⟨-, e⟩ | ⟨-, e⟩ | ⟨-, e⟩ | ⟨-, e⟩ <;> rw [e] at h
  · cases h
    exact .inl (radioQuiet_of_eq rfl rfl)
  · exact radioStep_idleStep h
  · exact radioStep_awaitStep atMostOneTx_acceptAck h
  · exact radioStep_awaitStep atMostOneTx_acceptFinal h

theorem radioStep_respStep {s t : State} (h : respStep s = some t) : RadioStep s t := by
  obtain ⟨htx, ⟨-, rfl⟩ | ⟨-, -, rfl⟩⟩ := respStep_cases h
  · have ht := radioQuiet_take s
    rcases respMessage_eq s with e | e <;> rw [e]
    · exact .inl (ht.trans (radioQuiet_rearm _))
    · exact (ht.atMostOneTx (atMostOneTx_onFrame _)).radioStep htx
  · exact .inl (radioQuiet_rearm { s with status.errPending := false })

theorem radioStep_sequencerStep {s t : State} (h : sequencerStep s = some t) : RadioStep s t := by
  obtain ⟨-, ⟨-, hc⟩ | ⟨-, hr⟩⟩ := sequencerStep_cases h
  · exact radioStep_coordStep hc
  · exact radioStep_respStep hr

theorem transmits_sendConfig (slot : Byte) (s : State) : Transmits s (sendConfig slot s) :=
  ⟨[.tx _ _ _ _], rfl, rfl, rfl⟩

theorem radioStep_commandEffect {s u : State} (h : CommandEffect s u) : RadioStep s u := by
  cases h with
  | keep => exact .inl (radioQuiet_refl s)
  | store f hlen => exact .inl (radioQuiet_of_eq rfl rfl)
  | config c => exact .inl (radioQuiet_of_eq rfl rfl)
  | add x => exact .inl (radioQuiet_regAdd x s)
  | remove d => exact .inl (radioQuiet_regRemove d s)
  | setId k d => exact .inl (radioQuiet_of_eq rfl rfl)
  | setDist d v => exact .inl (radioQuiet_of_eq (by simp) (by simp))
  | session own init total _ => exact .inl (radioQuiet_deriveSession own init total s)
  | sendConfig slot _ _ htx => exact .inr ⟨htx, transmits_sendConfig slot s⟩
  | transmit len mode rxAfter tmo htx => exact .inr ⟨htx, transmits_txRequest .host len mode rxAfter tmo s⟩
  | receive w => exact .inl (radioQuiet_rxOn w s)

theorem radioStep_commanded {s t : State} (h : Commanded s t) : RadioStep s t := by
  obtain ⟨u, c, he, rfl⟩ := h
  exact (radioStep_commandEffect he :)

theorem radioQuiet_writeCtrl (v : Word) (s : State) : RadioQuiet s (writeCtrl v s) := by
  unfold writeCtrl changeCtrl
  dsimp only
  split
  · exact radioQuiet_refl s
  split <;> split
  · exact ⟨[.rxon 0], rfl, rfl, rfl⟩
  · exact ⟨[.rxon 0], rfl, rfl, rfl⟩
  · exact radioQuiet_of_eq rfl rfl
  · exact radioQuiet_of_eq rfl rfl

/-- Beside `CTRL`, which may turn the receiver on, no register write reaches the radio; `STATUS.TX_PENDING` is read-only. -/
theorem radioQuiet_writeReg (r : HostReg) (v : Word) (s : State) : RadioQuiet s (writeReg r v s) := by
  cases r with
  | ctrl => exact radioQuiet_writeCtrl v s
  | inlen =>
    unfold writeReg
    dsimp only
    split <;> exact radioQuiet_of_eq rfl rfl
  | _ => exact radioQuiet_of_eq rfl rfl

theorem radioQuiet_writeLoc (l : Loc) (v : Word) (s : State) : RadioQuiet s (writeLoc l v s) := by
  cases l with
  | reg r => exact radioQuiet_writeReg r v s
  | inbuf off =>
    unfold writeLoc
    dsimp only
    split <;> exact radioQuiet_of_eq rfl rfl
  | _ => exact radioQuiet_refl s

theorem radioStep_hostEffect {s t : State} (h : HostEffect s t) : RadioStep s t := by
  cases h with
  | write off v _ => exact .inl (radioQuiet_writeLoc _ v s)
  | command hc => exact radioStep_commanded hc
  | _ => exact .inl (radioQuiet_of_eq rfl rfl)

/-- A radio event asks for nothing; only `EV_TX_DONE` ends a transmission (60_exceptions.md R270 to R272). -/
theorem captureEvent_radio (e : RadioEvent) (s : State) :
    RadioQuiet s (captureEvent e s) ∨ ∃ ts, e = .txDone ts ∧ (captureEvent e s).out = s.out := by
  have herr : ∀ c, RadioQuiet s (onRxErr c s) := fun c => by
    unfold onRxErr
    dsimp only
    split <;> exact radioQuiet_of_eq rfl rfl
  cases e with
  | rxGood bytes len ts =>
    refine .inl ?_
    show RadioQuiet s (onRxGood bytes len ts s)
    unfold onRxGood
    dsimp only
    split <;> split <;> exact radioQuiet_of_eq rfl rfl
  | rxError => exact .inl (herr .rxError)
  | rxTimeout => exact .inl (herr .rxTimeout)
  | txDone ts =>
    refine .inr ⟨ts, rfl, ?_⟩
    show (onTxDone ts s).out = s.out
    unfold onTxDone
    split <;> rfl

theorem radioQuiet_backoffStep {s t : State} (h : backoffStep s = some t) : RadioQuiet s t := by
  unfold backoffStep at h
  split at h
  · cases h
    exact radioQuiet_of_eq rfl rfl
  · nomatch h

/-- Every action but the block reset is a radio step, or the completion of a transmission, which asks for nothing. -/
theorem act_radio {a : Action} {s t : State} (h : act a s = .next t) (hne : a ≠ .blockReset) :
    RadioStep s t ∨ ∃ ts, a = .radio (.txDone ts) ∧ t.out = s.out := by
  have hagent : ∀ o : Option State, (∀ u, o = some u → RadioStep s u) → RadioStep s (o.getD s) := fun o ho => by
    cases o with
    | none => exact .inl (radioQuiet_refl s)
    | some u => exact ho u rfl
  cases a with
  | host a => exact .inl (radioStep_hostEffect (hostEffect_of_hostAccess h))
  | bus a => exact .inl (radioStep_hostEffect (hostEffect_of_busAccess h))
  | radio e =>
    cases h
    rcases captureEvent_radio e s with hq | ⟨ts, rfl, hout⟩
    · exact .inl (.inl hq)
    · exact .inr ⟨ts, rfl, hout⟩
  | sequencer => cases h; exact .inl (hagent _ fun _ => radioStep_sequencerStep)
  | backoffTimer => cases h; exact .inl (hagent _ fun _ hu => .inl (radioQuiet_backoffStep hu))
  | blockReset => exact absurd rfl hne

/-- Settles O52: an action is quiet, transmits from a state without an outstanding transmission, or completes one. -/
theorem oneTransmissionAtATime : Obligations.OneTransmissionAtATime := by
  intro a s t h hne
  rcases act_radio h hne with (⟨l, hl, hc, hp⟩ | ⟨htx, l, hl, hc, hp⟩) | ⟨ts, ha, hout⟩
  · exact ⟨⟨l, hl, by omega, fun _ => hc, fun h1 => by omega⟩, fun hs ht => by simp [hp, hs] at ht⟩
  · exact ⟨⟨l, hl, hc.le, fun hs => by simp [htx] at hs, fun _ => hp⟩, fun hs => by simp [htx] at hs⟩
  · exact ⟨⟨[], by rw [hout, List.append_nil], Nat.zero_le _, fun _ => rfl, nofun⟩, fun _ _ => ⟨ts, ha⟩⟩

end Sys2Proof.Machine
end

section
/-! PROOFS. The register map: where each register stands, what a read returns, what a write of a read/write register changes
(20_memory.md R61, R62, R66), and the words the block reset leaves (10_state.md R44). -/

namespace Sys2Proof.Machine

/-! ## Where a register stands -/

/-- The registers stand in the map one word each, in the order of `HostReg` (20_memory.md R62). -/
def HostReg.offset (r : HostReg) : Nat := 4 * r.ctorIdx

theorem hostRegAt_offset (r : HostReg) : hostRegAt r.offset = some r := by
  cases r <;> rfl

theorem HostReg.offset_lt (r : HostReg) : r.offset < 0x100 := by
  cases r <;> decide

theorem eq_offset_of_hostRegAt {off : Nat} {r : HostReg} (h : hostRegAt off = some r) : off = r.offset := by
  unfold hostRegAt at h
  split at h <;> cases h <;> rfl

theorem locate_offset (r : HostReg) : locate r.offset = .reg r := by
  rw [locate, if_pos r.offset_lt, hostRegAt_offset]

theorem eq_offset_of_locate {off : Nat} {r : HostReg} (h : locate off = .reg r) : off = r.offset := by
  unfold locate at h
  split at h
  · split at h
    · cases h
      exact eq_offset_of_hostRegAt ‹_›
    · nomatch h
  · (repeat' split at h) <;> nomatch h

/-! ## Reads and register writes of the host -/

theorem readAt_of_legal {off : Nat} (haligned : off % 4 = 0) (hlt : off < 0x1000) (s : State) :
    readAt off s = readLoc (locate off) s := by
  rw [readAt, hostRead, if_pos ((accessLegal_iff 4 off).mpr ⟨rfl, haligned, hlt⟩)]

theorem readAt_of_illegal {off : Nat} (h : ¬(off % 4 = 0 ∧ off < 0x1000)) (s : State) : readAt off s = 0 := by
  rw [readAt, hostRead, if_neg fun hl => h ((accessLegal_iff 4 off).mp hl).2]

theorem readAt_offset (r : HostReg) (s : State) : readAt r.offset s = readReg r s := by
  have hlt := r.offset_lt
  rw [readAt_of_legal (off := r.offset) (Nat.mul_mod_right 4 _) (by omega), locate_offset]
  rfl

/-- The host's write of a register other than `CMD`. -/
theorem act_write_offset {r : HostReg} (hr : r ≠ .cmd) (v : Word) (s : State) :
    act (.host (.write 4 r.offset v)) s = .next (writeReg r v s) := by
  have hlt := r.offset_lt
  have hlegal : accessLegal 4 r.offset = true := (accessLegal_iff 4 _).mpr ⟨rfl, Nat.mul_mod_right 4 _, by omega⟩
  have hcmd : r.offset ≠ cmdOffset := fun e => hr (Option.some.inj ((hostRegAt_offset r).symm.trans (e ▸ rfl)))
  show hostWrite 4 r.offset v s = _
  rw [hostWrite, if_pos hlegal, if_neg hcmd, locate_offset]
  rfl

/-! ## The halves of a wide register (20_memory.md R66) -/

theorem stampLo_setStampLo (a : Stamp) (v : Word) : stampLo (setStampLo a v) = v :=
  BitVec.extractLsb'_append_eq_right (w := 8)

theorem stampHi_setStampLo (a : Stamp) (v : Word) : stampHi (setStampLo a v) = stampHi a :=
  congrArg (BitVec.zeroExtend 32) (BitVec.extractLsb'_append_eq_left (b := v))

theorem stampLo_setStampHi (a : Stamp) (v : Word) : stampLo (setStampHi a v) = stampLo a :=
  BitVec.extractLsb'_append_eq_right (w := 8)

theorem extLo_setExtLo (a : ExtAddr) (v : Word) : extLo (setExtLo a v) = v :=
  BitVec.extractLsb'_append_eq_right (w := 32)

theorem extHi_setExtLo (a : ExtAddr) (v : Word) : extHi (setExtLo a v) = extHi a :=
  BitVec.extractLsb'_append_eq_left (w' := 32)

theorem extHi_setExtHi (a : ExtAddr) (v : Word) : extHi (setExtHi a v) = v :=
  BitVec.extractLsb'_append_eq_left (w' := 32)

theorem extLo_setExtHi (a : ExtAddr) (v : Word) : extLo (setExtHi a v) = extLo a :=
  BitVec.extractLsb'_append_eq_right (w := 32)

/-- A byte register reads the low byte of the word. -/
theorem zeroExtend_lowByte (v : Word) : (v.extractLsb' 0 8).zeroExtend 32 = v &&& 0x000000FF := by
  refine BitVec.eq_of_getLsbD_eq fun i hi => ?_
  have hmask : ∀ j (hj : j < 32), (255#32)[j] = decide (j < 8) := by decide
  simp [hmask i hi, hi, Bool.and_comm]

theorem stampHi_setStampHi (a : Stamp) (v : Word) : stampHi (setStampHi a v) = v &&& 0x000000FF :=
  (congrArg (BitVec.zeroExtend 32) (BitVec.extractLsb'_append_eq_left (w' := 32))).trans (zeroExtend_lowByte v)

/-- `IRQ_EN` reads the low byte of the word without bit 2 (10_state.md R24). -/
theorem irqEnMasked_readBack (v : Word) :
    (irqEnMasked (irqEnMasked (v.extractLsb' 0 8))).zeroExtend 32 = v &&& 0x000000FB := by
  have hmask : irqEnMasked (irqEnMasked (v.extractLsb' 0 8)) = v.extractLsb' 0 8 &&& 0xFB := by
    rw [irqEnMasked, irqEnMasked, BitVec.and_assoc, BitVec.and_self]
  have hand : (v.extractLsb' 0 8 &&& 0xFB).zeroExtend 32 = (v.extractLsb' 0 8).zeroExtend 32 &&& 0x000000FB :=
    BitVec.setWidth_and
  rw [hmask, hand, zeroExtend_lowByte, BitVec.and_assoc]
  rfl

/-! ## The registers a plain write changes -/

/-- The bits that a plain write changes, of the registers that have some (10_state.md R47, 20_memory.md R62). -/
def plainMask : HostReg → Option Word
  | .irqEn => some 0x000000FB
  | .argTimeHi | .seq => some 0x000000FF
  | .argTs | .argF32 | .argTimeLo | .argxALo | .argxAHi | .argxBLo | .argxBHi | .euiLo | .euiHi | .turnaround
  | .replyDelay | .rxTimeout | .backoffCyc | .blinkDlyMin | .blinkDlyMax | .distLimit => some 0xFFFFFFFF
  | _ => none

/-- A plain register reads back the word, within its width. -/
theorem readReg_writeReg_same {r : HostReg} {m : Word} (hm : plainMask r = some m) (v : Word) (s : State) :
    readReg r (writeReg r v s) = v &&& m := by
  have hall : v &&& 0xFFFFFFFF = v := BitVec.and_allOnes
  cases r <;> cases hm
  case irqEn => exact irqEnMasked_readBack v
  case argTimeLo => exact (stampLo_setStampLo s.args.time v).trans hall.symm
  case argTimeHi => exact stampHi_setStampHi s.args.time v
  case argxALo => exact (extLo_setExtLo s.args.xA v).trans hall.symm
  case argxAHi => exact (extHi_setExtHi s.args.xA v).trans hall.symm
  case argxBLo => exact (extLo_setExtLo s.args.xB v).trans hall.symm
  case argxBHi => exact (extHi_setExtHi s.args.xB v).trans hall.symm
  case euiLo => exact (extLo_setExtLo s.eui v).trans hall.symm
  case euiHi => exact (extHi_setExtHi s.eui v).trans hall.symm
  case seq => exact zeroExtend_lowByte v
  all_goals exact hall.symm

/-- The other half of a wide register, which shares its field with the half that is written. -/
def otherHalf : HostReg → Option HostReg
  | .argTimeLo => some .argTimeHi
  | .argTimeHi => some .argTimeLo
  | .argxALo => some .argxAHi
  | .argxAHi => some .argxALo
  | .argxBLo => some .argxBHi
  | .argxBHi => some .argxBLo
  | .euiLo => some .euiHi
  | .euiHi => some .euiLo
  | _ => none

theorem readReg_writeReg_otherHalf {r r' : HostReg} (h : otherHalf r = some r') (v : Word) (s : State) :
    readReg r' (writeReg r v s) = readReg r' s := by
  cases r <;> cases h
  case argTimeLo => exact stampHi_setStampLo s.args.time v
  case argTimeHi => exact stampLo_setStampHi s.args.time v
  case argxALo => exact extHi_setExtLo s.args.xA v
  case argxAHi => exact extLo_setExtHi s.args.xA v
  case argxBLo => exact extHi_setExtLo s.args.xB v
  case argxBHi => exact extLo_setExtHi s.args.xB v
  case euiLo => exact extHi_setExtLo s.eui v
  case euiHi => exact extLo_setExtHi s.eui v

/-- A register that is neither the one written nor its other half reads a field the write does not touch. -/
theorem readReg_writeReg_ne {r r' : HostReg} {m : Word} (hm : plainMask r = some m) (hne : r' ≠ r)
    (hhalf : otherHalf r ≠ some r') (v : Word) (s : State) : readReg r' (writeReg r v s) = readReg r' s := by
  cases r <;> cases hm
  all_goals cases r' <;> first | rfl | exact absurd rfl hne | exact absurd rfl hhalf

theorem readReg_writeReg_other {r r' : HostReg} {m : Word} (hm : plainMask r = some m) (hne : r' ≠ r) (v : Word)
    (s : State) : readReg r' (writeReg r v s) = readReg r' s := by
  by_cases hhalf : otherHalf r = some r'
  · exact readReg_writeReg_otherHalf hhalf v s
  · exact readReg_writeReg_ne hm hne hhalf v s

/-- A plain write changes nothing the windows show and asks the radio for nothing. -/
theorem writeReg_plain_frame {r : HostReg} {m : Word} (hm : plainMask r = some m) (v : Word) (s : State) :
    (writeReg r v s).mem = s.mem ∧ (writeReg r v s).session = s.session ∧ (writeReg r v s).registry = s.registry
      ∧ (writeReg r v s).round = s.round ∧ (writeReg r v s).out = s.out := by
  cases r <;> cases hm <;> exact ⟨rfl, rfl, rfl, rfl, rfl⟩

theorem readLoc_congr {l : Loc} {s t : State} (hl : ∀ r, l ≠ .reg r) (hmem : t.mem = s.mem)
    (hsession : t.session = s.session) (hregistry : t.registry = s.registry) (hround : t.round = s.round) :
    readLoc l t = readLoc l s := by
  cases l with
  | reg r => exact absurd rfl (hl r)
  | inbuf off => exact congrArg (memWord · off) hmem
  | cbuf off => exact congrArg (memWord · off) hmem
  | targets k => simp only [readLoc, targetAt, hsession]
  | registry slot word => simp only [readLoc, regSlot, hregistry]
  | perTarget index word => simp only [readLoc, perTargetWord, rtAt, rd1At, rd2At, hround]
  | reserved => rfl

/-- After a plain write every other offset reads as before. -/
theorem readAt_writeReg_other {r : HostReg} {m : Word} (hm : plainMask r = some m) (v : Word) (s : State) {off : Nat}
    (hoff : off ≠ r.offset) : readAt off (writeReg r v s) = readAt off s := by
  obtain ⟨hmem, hsession, hregistry, hround, -⟩ := writeReg_plain_frame hm v s
  by_cases hlegal : off % 4 = 0 ∧ off < 0x1000
  · rw [readAt_of_legal hlegal.1 hlegal.2, readAt_of_legal hlegal.1 hlegal.2]
    by_cases hreg : ∃ r', locate off = .reg r'
    · obtain ⟨r', hr'⟩ := hreg
      rw [hr']
      refine readReg_writeReg_other hm (fun e => hoff ?_) v s
      rw [eq_offset_of_locate hr', e]
    · exact readLoc_congr (fun r' hr' => hreg ⟨r', hr'⟩) hmem hsession hregistry hround
  · rw [readAt_of_illegal hlegal, readAt_of_illegal hlegal]

/-- Settles O29: each row of the table is a plain register and its mask. -/
theorem writableRegistersReadBack : Obligations.WritableRegistersReadBack := by
  intro off mask v s hrow
  have hplain : (hostRegAt off).bind plainMask = some mask := by
    show (hostRegAt (off, mask).1).bind plainMask = some (off, mask).2
    revert hrow
    generalize (off, mask) = row
    revert row
    decide
  obtain ⟨r, hr, hm⟩ := Option.bind_eq_some_iff.mp hplain
  obtain rfl := eq_offset_of_hostRegAt hr
  have hcmd : r ≠ .cmd := fun e => by simp [e, plainMask] at hm
  exact ⟨writeReg r v s, act_write_offset hcmd v s, (readAt_offset r _).trans (readReg_writeReg_same hm v s),
    fun _ => readAt_writeReg_other hm v s, (writeReg_plain_frame hm v s).2.2.2.2⟩

/-! ## The block reset -/

/-- No register shows a parameter. -/
theorem readReg_blockReset_eq_reset (r : HostReg) (s : State) : readReg r (blockReset s) = readReg r State.reset := by
  cases r <;> rfl

/-- The reset value of every register (10_state.md R44; for `DEC_INFO` log 12). -/
theorem readReg_blockReset (r : HostReg) (s : State) :
    readReg r (blockReset s) =
      if r.offset = 0x040 then 0x00010000 else if r.offset = 0x068 then 1000
      else if r.offset = 0x0B8 then 0x00000500 else 0 := by
  rw [readReg_blockReset_eq_reset]
  cases r <;> decide

theorem wordOfBytes_zero : wordOfBytes 0 0 0 0 = 0 := by decide

theorem registryWord_zero (word : Nat) : registryWord { addr := 0, id := 0, dist := 0 } word = 0 := by
  unfold registryWord
  split <;> rfl

theorem getD_replicate_zero {w : Nat} (n i : Nat) : (List.replicate n (0 : BitVec w)).getD i 0 = 0 := by
  rw [List.getD_eq_getElem?_getD, List.getElem?_replicate]
  split <;> rfl

theorem perTargetWord_blockReset (s : State) (i word : Nat) : perTargetWord (blockReset s) i word = 0 := by
  have hrt : rtAt (blockReset s) i = 0 := getD_replicate_zero _ _
  have hrd1 : rd1At (blockReset s) i = 0 := getD_replicate_zero _ _
  have hrd2 : rd2At (blockReset s) i = 0 := getD_replicate_zero _ _
  unfold perTargetWord
  rw [hrt, hrd1, hrd2]
  split <;> rfl

/-- Every window reads 0 after the block reset. -/
theorem readLoc_blockReset {l : Loc} (hl : ∀ r, l ≠ .reg r) (s : State) : readLoc l (blockReset s) = 0 := by
  cases l with
  | reg r => exact absurd rfl (hl r)
  | inbuf off => exact wordOfBytes_zero
  | cbuf off => exact wordOfBytes_zero
  | targets k => exact wordOfBytes_zero
  | registry slot word => exact registryWord_zero word
  | perTarget index word => exact perTargetWord_blockReset s index word
  | reserved => rfl

theorem readAt_blockReset {off : Nat} (haligned : off % 4 = 0) (hlt : off < 0x1000) (s : State) :
    readAt off (blockReset s) =
      if off = 0x040 then 0x00010000 else if off = 0x068 then 1000 else if off = 0x0B8 then 0x00000500 else 0 := by
  by_cases hreg : ∃ r, locate off = .reg r
  · obtain ⟨r, hr⟩ := hreg
    obtain rfl := eq_offset_of_locate hr
    rw [readAt_offset, readReg_blockReset]
  · have hne : ∀ r : HostReg, off ≠ r.offset := fun r e => hreg ⟨r, e ▸ locate_offset r⟩
    have hsession : off ≠ 0x040 := hne .session
    have hdist : off ≠ 0x068 := hne .distLimit
    have hdec : off ≠ 0x0B8 := hne .decInfo
    rw [readAt_of_legal haligned hlt, readLoc_blockReset fun r hr => hreg ⟨r, hr⟩, if_neg hsession, if_neg hdist,
      if_neg hdec]

/-- No flag is set, so none raises the interrupt. -/
theorem irq_blockReset (s : State) : irq (blockReset s) = false := (by decide : irq State.reset = false)

/-- Settles O33: the registers by the map, the agents because the block is disabled and without backoff. -/
theorem blockResetLeaves : Obligations.BlockResetLeaves := fun s =>
  ⟨blockReset s, rfl, fun _ hlt haligned => readAt_blockReset haligned hlt s, rfl, irq_blockReset s, ⟨rfl, rfl⟩, rfl, rfl, rfl⟩

end Sys2Proof.Machine
end

section
/-! PROOFS. The host interface: what a block offset names, what a legal and an illegal access do, and the fields of the words a
read returns (20_memory.md R61 to R72, R79). -/

namespace Sys2Proof.Machine

/-! ## What an offset names (20_memory.md R62, R63) -/

theorem HostReg.offset_le (r : HostReg) : r.offset ≤ 0x0D0 := by
  cases r <;> decide

theorem locate_inbuf {off : Nat} (hlo : 0x100 ≤ off) (hhi : off < 0x180) : locate off = .inbuf off := by
  rw [locate, if_neg (by omega), if_pos hhi]

theorem locate_cbuf {off : Nat} (hlo : 0x180 ≤ off) (hhi : off < 0x200) : locate off = .cbuf off := by
  rw [locate, if_neg (by omega), if_neg (by omega), if_pos hhi]

theorem locate_targets {off : Nat} (hlo : 0x200 ≤ off) (hhi : off < 0x240) : locate off = .targets (off - 0x200) := by
  rw [locate, if_neg (by omega), if_neg (by omega), if_neg (by omega), if_pos hhi]

theorem locate_registry {off : Nat} (hlo : 0x400 ≤ off) (hhi : off < 0x800) :
    locate off = .registry ((off - 0x400) / 16) ((off - 0x400) % 16 / 4) := by
  rw [locate, if_neg (by omega), if_neg (by omega), if_neg (by omega), if_neg (by omega), if_neg (by omega), if_pos hhi]

theorem locate_perTarget {off : Nat} (hlo : 0x800 ≤ off) (hhi : off < 0xC00) :
    locate off = .perTarget ((off - 0x800) / 16) ((off - 0x800) % 16 / 4) := by
  rw [locate, if_neg (by omega), if_neg (by omega), if_neg (by omega), if_neg (by omega), if_neg (by omega),
    if_neg (by omega), if_pos hhi]

/-- The three reserved ranges (20_memory.md R63). -/
theorem locate_reserved {off : Nat}
    (h : (0x0D4 ≤ off ∧ off ≤ 0x0FC) ∨ (0x240 ≤ off ∧ off ≤ 0x3FC) ∨ (0xC00 ≤ off ∧ off ≤ 0xFFC)) :
    locate off = .reserved := by
  rcases h with h | h | h
  · have hreg : hostRegAt off = none := by
      by_contra hne
      obtain ⟨r, hr⟩ := Option.ne_none_iff_exists'.mp hne
      have hoff := eq_offset_of_hostRegAt hr
      have hle := r.offset_le
      omega
    rw [locate, if_pos (by omega), hreg]
  · rw [locate, if_neg (by omega), if_neg (by omega), if_neg (by omega), if_neg (by omega), if_pos (by omega)]
  · rw [locate, if_neg (by omega), if_neg (by omega), if_neg (by omega), if_neg (by omega), if_neg (by omega),
      if_neg (by omega), if_neg (by omega)]

/-! ## Legal and illegal accesses (20_memory.md R61, R64, R72) -/

theorem accessLegal_eq_false {size off : Nat} (h : size ≠ 4 ∨ off % 4 ≠ 0 ∨ 0x1000 ≤ off) :
    accessLegal size off = false := by
  rw [← Bool.not_eq_true, accessLegal_iff]
  omega

theorem hostWrite_of_illegal {size off : Nat} (h : accessLegal size off = false) (v : Word) (s : State) :
    hostWrite size off v s = .next (illegalAccess s) := by
  simp [hostWrite, h]

theorem hostRead_of_illegal {size off : Nat} (h : accessLegal size off = false) (s : State) :
    hostRead size off s = { illegalAccess s with readData := 0 } := by
  simp [hostRead, h]

theorem hostRead_of_legal {off : Nat} (haligned : off % 4 = 0) (hlt : off < 0x1000) (s : State) :
    hostRead 4 off s = { s with readData := readLoc (locate off) s } := by
  rw [hostRead, if_pos ((accessLegal_iff 4 off).mpr ⟨rfl, haligned, hlt⟩)]

/-- A legal write at an offset other than that of `CMD`. -/
theorem act_write_of_legal {off : Nat} (haligned : off % 4 = 0) (hlt : off < 0x1000) (hcmd : off ≠ 0x00C) (v : Word)
    (s : State) : act (.host (.write 4 off v)) s = .next (writeLoc (locate off) v s) := by
  show hostWrite 4 off v s = _
  rw [hostWrite, if_pos ((accessLegal_iff 4 off).mpr ⟨rfl, haligned, hlt⟩), if_neg (show off ≠ cmdOffset from hcmd)]

/-- The host's write of a command word (20_memory.md R71). -/
theorem act_write_cmd (w : Word) (s : State) : act (.host (.write 4 0x00C w)) s = runCommand w s := rfl

theorem runCommand_of_decode {w : Word} {i : Instr} (h : decode w = .instr i) (s : State) : runCommand w s = exec i s := by
  rw [runCommand, h]

/-- No register shows what the last read returned. -/
theorem readReg_readData (r : HostReg) (v : Word) (s : State) : readReg r { s with readData := v } = readReg r s := by
  cases r <;> rfl

theorem readLoc_readData (l : Loc) (v : Word) (s : State) : readLoc l { s with readData := v } = readLoc l s := by
  cases l with
  | reg r => exact readReg_readData r v s
  | _ => rfl

/-! ## The bus (20_memory.md R79) -/

theorem inBlock_inside {base off : Nat} (hoff : off < 0x1000) : inBlock base (base + off) = true := by
  simpa [inBlock] using hoff

theorem inBlock_outside {base addr : Nat} (h : addr < base ∨ base + 0x1000 ≤ addr) : inBlock base addr = false := by
  rw [inBlock, decide_eq_false_iff_not]
  omega

/-! ## Writes without effect (10_state.md R47, 20_memory.md R63, R69) -/

/-- A register that is neither plain nor one of the four with a write of its own ignores writes (10_state.md R47). -/
theorem writeReg_readOnly {r : HostReg} (hplain : plainMask r = none) (hown : r ∉ [.ctrl, .status, .cmd, .inlen]) (v : Word)
    (s : State) : writeReg r v s = s := by
  cases r
  case ctrl | status | cmd | inlen => simp at hown
  case irqEn | argTs | argF32 | argTimeLo | argTimeHi | argxALo | argxAHi | argxBLo | argxBHi | euiLo | euiHi | seq
    | turnaround | replyDelay | rxTimeout | backoffCyc | blinkDlyMin | blinkDlyMax | distLimit => nomatch hplain
  all_goals rfl

/-- The offsets of the read-only registers (20_memory.md R62), `n` counting words. -/
theorem hostRegAt_readOnly : ∀ n < 53,
    4 * n ∈ [0x010, 0x034, 0x040, 0x044, 0x04C, 0x084] ∨ (0x06C ≤ 4 * n ∧ 4 * n ≤ 0x07C) ∨ (0x088 ≤ 4 * n ∧ 4 * n ≤ 0x0D0) →
      (hostRegAt (4 * n)).any (fun r => plainMask r = none ∧ r ∉ [.ctrl, .status, .cmd, .inlen]) = true := by
  decide

/-- The windows beside `INBUF` are read-only (20_memory.md R69). -/
theorem writeLoc_window {off : Nat} (h : (0x180 ≤ off ∧ off ≤ 0x23F) ∨ (0x400 ≤ off ∧ off ≤ 0xBFF)) (v : Word) (s : State) :
    writeLoc (locate off) v s = s := by
  have hcases : off < 0x200 ∨ (0x200 ≤ off ∧ off < 0x240) ∨ (0x400 ≤ off ∧ off < 0x800) ∨ 0x800 ≤ off := by omega
  rcases hcases with h' | h' | h' | h'
  · rw [locate_cbuf (by omega) h']
    rfl
  · rw [locate_targets h'.1 h'.2]
    rfl
  · rw [locate_registry h'.1 h'.2]
    rfl
  · rw [locate_perTarget h' (by omega)]
    rfl

/-! ## Reads of the windows (20_memory.md R65, R69) -/

theorem readAt_inbuf {off : Nat} (haligned : off % 4 = 0) (hlo : 0x100 ≤ off) (hhi : off < 0x180) (s : State) :
    readAt off s = memWord s.mem off := by
  rw [readAt_of_legal haligned (by omega), locate_inbuf hlo hhi]
  rfl

theorem readAt_cbuf {off : Nat} (haligned : off % 4 = 0) (hlo : 0x180 ≤ off) (hhi : off < 0x200) (s : State) :
    readAt off s = memWord s.mem off := by
  rw [readAt_of_legal haligned (by omega), locate_cbuf hlo hhi]
  rfl

theorem readAt_targets {k : Nat} (haligned : k % 4 = 0) (hk : k < 0x40) (s : State) :
    readAt (0x200 + k) s
      = wordOfBytes (targetAt s (k + 0)) (targetAt s (k + 1)) (targetAt s (k + 2)) (targetAt s (k + 3)) := by
  rw [readAt_of_legal (by omega) (by omega), locate_targets (by omega) (by omega), Nat.add_sub_cancel_left]
  rfl

/-- Word `k` of registry slot `i`. -/
theorem readAt_registry {off i k : Nat} (hi : i < 64) (hk : k < 4) (hoff : off = 0x400 + 16 * i + 4 * k) (s : State) :
    readAt off s = registryWord (regSlot s i) k := by
  subst hoff
  rw [readAt_of_legal (by omega) (by omega), locate_registry (by omega) (by omega),
    show (0x400 + 16 * i + 4 * k - 0x400) / 16 = i by omega, show (0x400 + 16 * i + 4 * k - 0x400) % 16 / 4 = k by omega]
  rfl

/-- Word `k` of per-target index `i`. -/
theorem readAt_perTarget {off i k : Nat} (hi : i < 64) (hk : k < 4) (hoff : off = 0x800 + 16 * i + 4 * k) (s : State) :
    readAt off s = perTargetWord s i k := by
  subst hoff
  rw [readAt_of_legal (by omega) (by omega), locate_perTarget (by omega) (by omega),
    show (0x800 + 16 * i + 4 * k - 0x800) / 16 = i by omega, show (0x800 + 16 * i + 4 * k - 0x800) % 16 / 4 = k by omega]
  rfl

/-- A registry slot without an entry reads 0. -/
theorem readAt_registry_free {i k : Nat} (hi : i < 64) (hk : k < 4) {s : State} (hfree : s.registry.length ≤ i) :
    readAt (0x400 + 16 * i + 4 * k) s = 0 := by
  have hslot : regSlot s i = { addr := 0, id := 0, dist := 0 } := List.getD_eq_default _ _ hfree
  rw [readAt_registry hi hk rfl, hslot, registryWord_zero]

/-- The target and per-target windows read 0 from CAP on. -/
theorem readAt_targets_beyond_cap {k : Nat} (haligned : k % 4 = 0) (hk : k < 0x40) {s : State} (h : s.Inv)
    (hcap : s.params.cap ≤ k) : readAt (0x200 + k) s = 0 := by
  obtain ⟨-, -, -, -, ⟨htargets, -⟩, -⟩ := h
  have hzero : ∀ j, targetAt s (k + j) = 0 := fun j => List.getD_eq_default _ _ (by omega)
  rw [readAt_targets haligned hk, hzero, hzero, hzero, hzero, wordOfBytes_zero]

theorem readAt_perTarget_beyond_cap {i k : Nat} (hi : i < 64) (hk : k < 4) {s : State} (h : s.Inv)
    (hcap : s.params.cap ≤ i) : readAt (0x800 + 16 * i + 4 * k) s = 0 := by
  obtain ⟨-, -, -, -, -, ⟨-, hrt, hrd1, hrd2⟩, -⟩ := h
  have hrtAt : rtAt s i = 0 := List.getD_eq_default _ _ (hrt.trans_le hcap)
  have hrd1At : rd1At s i = 0 := List.getD_eq_default _ _ (hrd1.trans_le hcap)
  have hrd2At : rd2At s i = 0 := List.getD_eq_default _ _ (hrd2.trans_le hcap)
  rw [readAt_perTarget hi hk rfl]
  unfold perTargetWord
  rw [hrtAt, hrd1At, hrd2At]
  split <;> rfl

/-! ## The statements -/

/-- Settles O5: the step takes the write off the schedule, and a write to `CMD` runs the command its word decodes to. -/
theorem stepRunsTheWrittenCommand : Obligations.StepRunsTheWrittenCommand := by
  have hstep : ∀ (s : State) (rest : List Action) (w : Word) (i : Instr),
      s.schedule = .host (.write 4 0x00C w) :: rest → decode w = .instr i →
        step s = exec i { s with schedule := rest } := fun s rest w i hs hw => by
    rw [step_eq_act, nextAction_cons hs, act_write_cmd, runCommand_of_decode hw]
  refine ⟨hstep, fun s nbits w i hw => ?_⟩
  have hdecode : decode (tableWord nbits w) = .instr i := by
    unfold decodeTableWord at hw
    split at hw <;> cases hw
    assumption
  exact hstep (s.withFetchWord nbits w) s.schedule _ i rfl hdecode

/-- Settles O26: by whether the access is legal, and whether the bus address is in the block. -/
theorem hostReadsAndIllegalAccesses : Obligations.HostReadsAndIllegalAccesses := by
  refine ⟨fun size off v s h => ?_, fun off s haligned hlt => ⟨readLoc (locate off) s, ?_, ?_⟩, fun size addr v s =>
    ⟨fun off hoff haddr => ?_, fun hout => ?_⟩⟩
  · have hillegal := accessLegal_eq_false h
    exact ⟨hostWrite_of_illegal hillegal v s, congrArg _ (hostRead_of_illegal hillegal s)⟩
  · exact congrArg _ (hostRead_of_legal haligned hlt s)
  · exact (congrArg _ (hostRead_of_legal haligned hlt _)).trans
      (congrArg (fun w => Host.Outcome.next { s with readData := w }) (readLoc_readData (locate off) _ s))
  · subst haddr
    simp [act, busAccess, hostAccess, inBlock_inside hoff]
  · simp [act, busAccess, inBlock_outside hout]

/-- Settles O28: what each range of offsets names, and that nothing is written there. -/
theorem reservedAndReadOnlyIgnoreWrites : Obligations.ReservedAndReadOnlyIgnoreWrites := by
  refine ⟨fun off v s haligned h => ⟨?_, ?_⟩, fun s i h hcap => ⟨fun j hj hij => ?_, fun hi k hk => ⟨?_, ?_⟩⟩,
    fun off v s haligned h => ?_⟩
  · rw [readAt_of_legal haligned (by omega), locate_reserved h]
    rfl
  · rw [act_write_of_legal haligned (by omega) (by omega), locate_reserved h]
    rfl
  · exact readAt_targets_beyond_cap (by omega) (by omega) h hcap
  · obtain ⟨-, -, -, ⟨hregistry, -⟩, -⟩ := h
    exact readAt_registry_free hi hk (hregistry.trans hcap)
  · exact readAt_perTarget_beyond_cap hi hk h hcap
  · by_cases hwindow : (0x180 ≤ off ∧ off ≤ 0x23F) ∨ (0x400 ≤ off ∧ off ≤ 0xBFF)
    · rw [act_write_of_legal haligned (by omega) (by omega), writeLoc_window hwindow]
    · have hreg : off ∈ [0x010, 0x034, 0x040, 0x044, 0x04C, 0x084] ∨ (0x06C ≤ off ∧ off ≤ 0x07C)
          ∨ (0x088 ≤ off ∧ off ≤ 0x0D0) := by tauto
      obtain ⟨n, rfl⟩ : ∃ n, off = 4 * n := ⟨off / 4, by omega⟩
      have hn : n < 53 := by simp at hreg; omega
      obtain ⟨r, hr, hro⟩ := (Option.any_eq_true _ _).mp (hostRegAt_readOnly n hn hreg)
      obtain ⟨hplain, hown⟩ := of_decide_eq_true hro
      rw [eq_offset_of_hostRegAt hr, act_write_offset (by rintro rfl; simp at hown), writeReg_readOnly hplain hown]

end Sys2Proof.Machine
end

section
/-! PROOFS. The mailbox, the flags and the fields of every word of the register map (20_memory.md R62, R65, R68 to R70). -/

namespace Sys2Proof.Machine

/-! ## The mailbox (20_memory.md R65, R68) -/

/-- Byte `k` of a written word, bits 7:0 first. -/
theorem getD_bytesOfWord (v : Word) {k : Nat} (hk : k < 4) : (bytesOfWord v).getD k 0 = v.extractLsb' (8 * k) 8 := by
  refine BitVec.eq_of_toNat_eq ?_
  have hbyte := leValue_byte (le4 v) k (by rw [length_le4]; exact hk)
  rw [leValue_le4] at hbyte
  rw [bytesOfWord, ← hbyte, BitVec.extractLsb'_toNat, Nat.shiftRight_eq_div_pow, pow_mul]
  rfl

theorem act_write_inlen (v : Word) (s : State) : act (.host (.write 4 0x080 v)) s = .next (writeReg .inlen v s) :=
  act_write_offset (r := .inlen) (by decide) v s

theorem act_write_inbuf {j : Nat} (hj : j < 32) (v : Word) (s : State) :
    act (.host (.write 4 (0x100 + 4 * j) v)) s = .next (writeLoc (.inbuf (0x100 + 4 * j)) v s) := by
  rw [act_write_of_legal (by omega) (by omega) (by omega), locate_inbuf (by omega) (by omega)]

/-- Settles O31: both writes ask for role NONE, and a store changes the bytes it is given. -/
theorem mailboxWriteNeedsRoleNone : Obligations.MailboxWriteNeedsRoleNone := by
  refine fun v s => ⟨fun hrole => ⟨?_, fun j hj => ?_⟩, fun hrole => ⟨?_, fun j hj => ⟨_, act_write_inbuf hj v s, ?_⟩⟩⟩
  · rw [act_write_inlen, writeReg, if_neg hrole]
  · rw [act_write_inbuf hj, writeLoc, if_neg hrole]
  · rw [act_write_inlen, writeReg, if_pos hrole]
  · rw [writeLoc, if_pos hrole]
    refine ⟨rfl, fun k hk => ?_, fun a ha => ?_⟩
    · show (s.mem.store (0x100 + 4 * j) 4 (bytesOfWord v)).read (0x100 + 4 * j + k) = _
      rw [Memory.read_store, if_pos (by omega), Nat.add_sub_cancel_left, getD_bytesOfWord v hk]
    · show (s.mem.store (0x100 + 4 * j) 4 (bytesOfWord v)).read a = _
      rw [Memory.read_store, if_neg (by omega)]

/-! ## The fields of a word -/

/-- The fields of `x` from bit `lo` up are the listed values, the lowest first. -/
def FieldsFrom {n : Nat} (x : BitVec n) : Nat → List ((w : Nat) × BitVec w) → Prop
  | _, [] => True
  | lo, [⟨w, b⟩] => x.extractLsb' lo w = b
  | lo, ⟨w, b⟩ :: f :: fs => x.extractLsb' lo w = b ∧ FieldsFrom x (lo + w) (f :: fs)

theorem fieldsFrom_whole {w : Nat} (b : BitVec w) : FieldsFrom b 0 [⟨w, b⟩] := BitVec.extractLsb'_eq_self

/-- A field put below moves the others up by its width. -/
theorem fieldsFrom_shift {v w lo : Nat} {a : BitVec v} (b : BitVec w) {fs : List ((w : Nat) × BitVec w)}
    (h : FieldsFrom a lo fs) : FieldsFrom (a ++ b) (w + lo) fs := by
  have hfield : ∀ {lo n : Nat}, (a ++ b).extractLsb' (w + lo) n = a.extractLsb' lo n := fun {lo n} => by
    rw [BitVec.extractLsb'_append_eq_of_le (by omega), Nat.add_sub_cancel_left]
  induction fs generalizing lo with
  | nil => trivial
  | cons f fs ih =>
    cases fs with
    | nil => exact hfield.trans h
    | cons g gs =>
      obtain ⟨hf, hgs⟩ := h
      exact ⟨hfield.trans hf, Nat.add_assoc w lo f.1 ▸ ih hgs⟩

theorem fieldsFrom_append {v w : Nat} {a : BitVec v} (b : BitVec w) {f : (w : Nat) × BitVec w}
    {fs : List ((w : Nat) × BitVec w)} (h : FieldsFrom a 0 (f :: fs)) : FieldsFrom (a ++ b) 0 (⟨w, b⟩ :: f :: fs) :=
  ⟨BitVec.extractLsb'_append_eq_right, Nat.add_comm w 0 ▸ fieldsFrom_shift b h⟩

/-- A field of the lowest field is a field of the word. -/
theorem extract_of_lowest {n w lo len : Nat} {x : BitVec n} {b : BitVec w} (h : x.extractLsb' 0 w = b) (hle : lo + len ≤ w) :
    x.extractLsb' lo len = b.extractLsb' lo len := by
  subst h
  refine BitVec.eq_of_getLsbD_eq fun i hi => ?_
  simp [hi, show lo + i < w by omega]

theorem fieldsFrom_zeroExtend {w n : Nat} (b : BitVec w) (h : w ≤ n) :
    FieldsFrom (b.zeroExtend n) 0 [⟨w, b⟩, ⟨n - w, 0⟩] := by
  refine ⟨(BitVec.extractLsb'_setWidth_of_le (by omega)).trans BitVec.extractLsb'_eq_self, ?_⟩
  refine BitVec.eq_of_getLsbD_eq fun i hi => ?_
  simp

/-- The bit a one-bit field shows. -/
theorem getLsbD_of_field {n lo : Nat} {x : BitVec n} {b : Bool} (h : x.extractLsb' lo 1 = bit b) : x.getLsbD lo = b := by
  have hbit := congrArg (·.getLsbD 0) h
  simpa [bit] using hbit

/-! ## The words of the registers (20_memory.md R62) -/

theorem fieldsFrom_ctrlWord (s : State) :
    FieldsFrom (ctrlWord s) 0 [⟨1, bit s.enable⟩, ⟨2, roleBits s.role⟩, ⟨29, 0⟩] :=
  fieldsFrom_append _ <| fieldsFrom_append _ <| fieldsFrom_whole _

theorem fieldsFrom_statusLowByte (f : Status) :
    FieldsFrom (statusLowByte f) 0 [⟨1, bit f.msgPending⟩, ⟨1, bit f.errPending⟩, ⟨1, bit f.txPending⟩, ⟨1, bit f.roundDone⟩,
      ⟨1, bit f.roundFail⟩, ⟨1, bit f.discReq⟩, ⟨1, bit f.overrun⟩, ⟨1, bit f.accessErr⟩] :=
  fieldsFrom_append _ <| fieldsFrom_append _ <| fieldsFrom_append _ <| fieldsFrom_append _ <| fieldsFrom_append _ <|
    fieldsFrom_append _ <| fieldsFrom_append _ <| fieldsFrom_whole _

theorem fieldsFrom_statusWord_lowByte (f : Status) :
    FieldsFrom (statusWord f) 0 [⟨8, statusLowByte f⟩, ⟨1, errCauseBit f.errCause⟩, ⟨1, bit f.backoff⟩,
      ⟨2, coordStateBits f.coordState⟩, ⟨1, respPhaseBit f.respPhase⟩, ⟨3, txKindBits f.txKind⟩, ⟨16, 0⟩] :=
  fieldsFrom_append _ <| fieldsFrom_append _ <| fieldsFrom_append _ <| fieldsFrom_append _ <| fieldsFrom_append _ <|
    fieldsFrom_append _ <| fieldsFrom_whole _

theorem fieldsFrom_statusWord (f : Status) :
    FieldsFrom (statusWord f) 0 [⟨1, bit f.msgPending⟩, ⟨1, bit f.errPending⟩, ⟨1, bit f.txPending⟩, ⟨1, bit f.roundDone⟩,
      ⟨1, bit f.roundFail⟩, ⟨1, bit f.discReq⟩, ⟨1, bit f.overrun⟩, ⟨1, bit f.accessErr⟩, ⟨1, errCauseBit f.errCause⟩,
      ⟨1, bit f.backoff⟩, ⟨2, coordStateBits f.coordState⟩, ⟨1, respPhaseBit f.respPhase⟩, ⟨3, txKindBits f.txKind⟩,
      ⟨16, 0⟩] := by
  obtain ⟨hlow, hhigh⟩ := fieldsFrom_statusWord_lowByte f
  have hbit : ∀ {k : Nat} {b : BitVec 1}, k < 8 → (statusLowByte f).extractLsb' k 1 = b →
      (statusWord f).extractLsb' k 1 = b := fun hk h => (extract_of_lowest hlow hk).trans h
  obtain ⟨h0, h1, h2, h3, h4, h5, h6, h7⟩ := fieldsFrom_statusLowByte f
  exact ⟨hbit (by decide) h0, hbit (by decide) h1, hbit (by decide) h2, hbit (by decide) h3, hbit (by decide) h4,
    hbit (by decide) h5, hbit (by decide) h6, hbit (by decide) h7, hhigh⟩

theorem fieldsFrom_cmdStatusWord (c : CmdStatus) :
    FieldsFrom (cmdStatusWord c) 0 [⟨8, c.opc⟩, ⟨1, bit c.ok⟩, ⟨3, 0⟩, ⟨4, errCodeBits c.err⟩, ⟨8, c.resId⟩, ⟨8, 0⟩] :=
  fieldsFrom_append _ <| fieldsFrom_append _ <| fieldsFrom_append _ <| fieldsFrom_append _ <| fieldsFrom_append _ <|
    fieldsFrom_whole _

/-- A word of four bytes (20_memory.md R65). -/
theorem fieldsFrom_wordOfBytes (b0 b1 b2 b3 : Byte) :
    FieldsFrom (wordOfBytes b0 b1 b2 b3) 0 [⟨8, b0⟩, ⟨8, b1⟩, ⟨8, b2⟩, ⟨8, b3⟩] :=
  fieldsFrom_append _ <| fieldsFrom_append _ <| fieldsFrom_append _ <| fieldsFrom_whole _

theorem cfgOutWord_eq (t : ConfigTriple) : cfgOutWord t = wordOfBytes t.init t.assigned t.total 0 := rfl

theorem sessionWord_eq (v : Session) : sessionWord v = wordOfBytes v.ownId v.initId v.nodeCount v.waitPos := rfl

theorem fieldsFrom_roundWord (s : State) :
    FieldsFrom (roundWord s) 0 [⟨8, s.round.pos⟩, ⟨8, BitVec.ofNat 8 (tgtCount s)⟩, ⟨16, 0⟩] :=
  fieldsFrom_append _ <| fieldsFrom_append _ <| fieldsFrom_whole _

theorem fieldsFrom_lastAbortWord (l : LastAbort) :
    FieldsFrom (lastAbortWord l) 0 [⟨8, abortCauseBits l.cause⟩, ⟨8, l.evictId⟩, ⟨1, bit l.evictV⟩, ⟨15, 0⟩] :=
  fieldsFrom_append _ <| fieldsFrom_append _ <| fieldsFrom_append _ <| fieldsFrom_whole _

theorem fieldsFrom_stampHi (a : Stamp) : FieldsFrom (stampHi a) 0 [⟨8, a.extractLsb' 32 8⟩, ⟨24, 0⟩] :=
  fieldsFrom_zeroExtend _ (by decide)

theorem fieldsFrom_decInfoWord (m : Memory) :
    FieldsFrom (decInfoWord m) 0 [⟨2, addrModeBits (dstMode m)⟩, ⟨2, addrModeBits (srcMode m)⟩, ⟨4, 0⟩,
      ⟨8, BitVec.ofNat 8 (headerLen m)⟩, ⟨8, fcode m⟩, ⟨8, frameSeq m⟩] :=
  fieldsFrom_append _ <| fieldsFrom_append _ <| fieldsFrom_append _ <| fieldsFrom_append _ <| fieldsFrom_append _ <|
    fieldsFrom_whole _

theorem fieldsFrom_decShortWord (m : Memory) : FieldsFrom (decShortWord m) 0 [⟨16, dstShort m⟩, ⟨16, srcShort m⟩] :=
  fieldsFrom_append _ <| fieldsFrom_whole _

/-! ## The flags and the interrupt (20_memory.md R70, 60_exceptions.md R274) -/

theorem getLsbD_statusWord_low (f : Status) {i : Nat} (hi : i < 8) :
    (statusWord f).getLsbD i = (statusLowByte f).getLsbD i := by
  obtain ⟨hlow, -⟩ := fieldsFrom_statusWord_lowByte f
  rw [← hlow, BitVec.getLsbD_extractLsb']
  simp [hi]

theorem getLsbD_append_congr_high {v w i : Nat} (a : BitVec v) (b c : BitVec w) (hi : w ≤ i) :
    (a ++ b).getLsbD i = (a ++ c).getLsbD i := by
  rw [BitVec.getLsbD_append, BitVec.getLsbD_append, if_neg (by omega), if_neg (by omega)]

/-- A clear touches no bit above the flags. -/
theorem getLsbD_statusClear_high (v : Word) (f : Status) {i : Nat} (hi : 8 ≤ i) :
    (statusWord (statusClear v f)).getLsbD i = (statusWord f).getLsbD i :=
  getLsbD_append_congr_high _ (statusLowByte (statusClear v f)) (statusLowByte f) hi

/-- The flags of `STATUS`, bit 0 first (10_state.md R23). -/
theorem getLsbD_statusWord_flag (f : Status) {i : Nat} (hi : i < 8) :
    (statusWord f).getLsbD i = [f.msgPending, f.errPending, f.txPending, f.roundDone, f.roundFail, f.discReq, f.overrun,
      f.accessErr].getD i false := by
  obtain ⟨h0, h1, h2, h3, h4, h5, h6, h7, -⟩ := fieldsFrom_statusWord f
  interval_cases i
  exacts [getLsbD_of_field h0, getLsbD_of_field h1, getLsbD_of_field h2, getLsbD_of_field h3, getLsbD_of_field h4,
    getLsbD_of_field h5, getLsbD_of_field h6, getLsbD_of_field h7]

/-- The flags after a clear; bit 2 is no W1C bit. -/
theorem getLsbD_statusClear_low (v : Word) (f : Status) {i : Nat} (hi : i < 8) :
    (statusWord (statusClear v f)).getLsbD i = ((statusWord f).getLsbD i && !(v.getLsbD i && decide (i ≠ 2))) := by
  rw [getLsbD_statusWord_flag _ hi, getLsbD_statusWord_flag _ hi]
  interval_cases i <;> simp [statusClear]

theorem statusWord_statusClear (v : Word) (f : Status) :
    statusWord (statusClear v f) = statusWord f &&& ~~~(v &&& 0x000000FB) := by
  have hmask : ∀ i < 32, (0x000000FB : Word).getLsbD i = decide (i < 8 ∧ i ≠ 2) := by decide
  refine BitVec.eq_of_getLsbD_eq fun i hi => ?_
  rw [BitVec.getLsbD_and, BitVec.getLsbD_not, BitVec.getLsbD_and, hmask i hi]
  by_cases hlow : i < 8
  · rw [getLsbD_statusClear_low v f hlow]
    simp [hi, hlow]
  · rw [getLsbD_statusClear_high v f (by omega)]
    simp [hi, hlow]

theorem ne_zero_iff_getLsbD {w : Nat} (x : BitVec w) : x ≠ 0 ↔ ∃ i < w, x.getLsbD i = true := by
  constructor
  · intro hne
    have hbit := BitVec.getLsbD_true_ctz_of_ne_zero hne
    exact ⟨_, BitVec.lt_of_getLsbD hbit, hbit⟩
  · rintro ⟨i, -, hi⟩ rfl
    simp at hi

theorem getLsbD_irqEn_word (b : Byte) {i : Nat} (hi : i < 8) :
    ((irqEnMasked b).zeroExtend 32).getLsbD i = (irqEnMasked b).getLsbD i := by
  rw [BitVec.getLsbD_setWidth]
  simp [show i < 32 by omega]

/-- The interrupt output is an enabled flag, bit by bit. -/
theorem irq_iff (s : State) :
    irq s = true ↔
      ∃ i < 8, (statusWord s.status).getLsbD i = true ∧ ((irqEnMasked s.irqEn).zeroExtend 32).getLsbD i = true := by
  rw [irq, bne_iff_ne, ne_zero_iff_getLsbD]
  refine exists_congr fun i => and_congr_right fun hi => ?_
  rw [BitVec.getLsbD_and, Bool.and_eq_true, getLsbD_statusWord_low _ hi, getLsbD_irqEn_word _ hi]

/-- Settles O30: the clear bit by bit, and the interrupt over the flags, of which bit 2 is never enabled. -/
theorem statusClearAndInterrupt : Obligations.StatusClearAndInterrupt := by
  refine ⟨fun v s => ⟨_, act_write_offset (r := .status) (by decide) v s, rfl, statusWord_statusClear v s.status⟩, fun s => ?_⟩
  have hstatus : readAt 0x004 s = statusWord s.status := readAt_offset .status s
  have hirqEn : readAt 0x008 s = (irqEnMasked s.irqEn).zeroExtend 32 := readAt_offset .irqEn s
  have hbits : ∀ i, i ∈ [0, 1, 3, 4, 5, 6, 7] ↔ i < 8 ∧ i ≠ 2 := by simp; omega
  rw [irq_iff, hstatus, hirqEn]
  refine exists_congr fun i => ?_
  rw [hbits]
  constructor
  · rintro ⟨hi, hflag, hen⟩
    refine ⟨⟨hi, ?_⟩, hflag, hen⟩
    rintro rfl
    rw [getLsbD_irqEn_word _ hi, getLsbD_irqEnMasked] at hen
    nomatch hen
  · rintro ⟨⟨hi, -⟩, hflag, hen⟩
    exact ⟨hi, hflag, hen⟩

end Sys2Proof.Machine
end

section
/-! PROOFS. The register map as a legal read shows it: the getters of `CBUF`, the registers field by field and the windows
entry by entry (20_memory.md R62, R65, R69; 41_codec.md R129 to R136). -/

namespace Sys2Proof.Machine

/-! ## The getters (41_codec.md R129 to R136) -/

/-- A getter that is `n` bytes of `CBUF` under one mode and 0 under the others, byte by byte. -/
theorem extract_getter {w n k : Nat} {p q : Prop} [Decidable p] [Decidable q] (hpq : p ↔ q) (m : Memory) (a : Nat) (hk : k < n)
    (hw : w = 8 * n) :
    (if p then BitVec.ofNat w (cbufValue m a n) else 0).extractLsb' (8 * k) 8 = if q then m.read (0x180 + (a + k)) else 0 := by
  by_cases h : p
  · rw [if_pos h, if_pos (hpq.mp h), cbufValue, extract_leValue_bytes m _ hk hw, Nat.add_assoc]
    rfl
  · rw [if_neg h, if_neg fun hq => h (hpq.mpr hq)]
    exact BitVec.extractLsb'_zero

/-- The destination address stands at byte 5. -/
theorem extract_dstShort (m : Memory) {k : Nat} (hk : k < 2) :
    (dstShort m).extractLsb' (8 * k) 8 = if (cbufByte m 1).extractLsb' 2 2 = 2 then m.read (0x180 + (5 + k)) else 0 := by
  obtain ⟨-, -, hshort, -⟩ := addrModeOf_spec ((cbufByte m 1).extractLsb' 2 2)
  exact extract_getter hshort m 5 hk rfl

theorem extract_dstExt (m : Memory) {k : Nat} (hk : k < 8) :
    (dstExt m).extractLsb' (8 * k) 8 = if (cbufByte m 1).extractLsb' 2 2 = 3 then m.read (0x180 + (5 + k)) else 0 := by
  obtain ⟨-, -, -, hext⟩ := addrModeOf_spec ((cbufByte m 1).extractLsb' 2 2)
  exact extract_getter hext m 5 hk rfl

/-- The source address stands after the destination address. -/
theorem extract_srcShort (m : Memory) {k : Nat} (hk : k < 2) :
    (srcShort m).extractLsb' (8 * k) 8
      = if (cbufByte m 1).extractLsb' 6 2 = 2 then m.read (0x180 + (5 + alen (dstMode m) + k)) else 0 := by
  obtain ⟨-, -, hshort, -⟩ := addrModeOf_spec ((cbufByte m 1).extractLsb' 6 2)
  exact extract_getter hshort m _ hk rfl

theorem extract_srcExt (m : Memory) {k : Nat} (hk : k < 8) :
    (srcExt m).extractLsb' (8 * k) 8
      = if (cbufByte m 1).extractLsb' 6 2 = 3 then m.read (0x180 + (5 + alen (dstMode m) + k)) else 0 := by
  obtain ⟨-, -, -, hext⟩ := addrModeOf_spec ((cbufByte m 1).extractLsb' 6 2)
  exact extract_getter hext m _ hk rfl

/-- The timestamp stands after the function code. -/
theorem extract_frameTs (m : Memory) {k : Nat} (hk : k < 4) :
    (frameTs m).extractLsb' (8 * k) 8 = m.read (0x180 + (headerLen m + 1 + k)) := by
  rw [frameTs, cbufValue, extract_leValue_bytes m _ hk rfl, Nat.add_assoc]
  rfl

theorem headerLen_le (m : Memory) : headerLen m ≤ 21 := by
  have hlen : ∀ a : AddrMode, alen a ≤ 8 := fun a => by cases a <;> decide
  have hdst := hlen (dstMode m)
  have hsrc := hlen (srcMode m)
  unfold headerLen
  omega

/-! ## Reads of the windows, byte by byte and entry by entry (20_memory.md R65, R69) -/

theorem extract_wordOfBytes (g : Nat → Byte) {k : Nat} (hk : k < 4) :
    (wordOfBytes (g 0) (g 1) (g 2) (g 3)).extractLsb' (8 * k) 8 = g k := by
  obtain ⟨h0, h1, h2, h3⟩ := fieldsFrom_wordOfBytes (g 0) (g 1) (g 2) (g 3)
  interval_cases k
  exacts [h0, h1, h2, h3]

theorem extract_memWord (m : Memory) (off : Nat) {k : Nat} (hk : k < 4) :
    (memWord m off).extractLsb' (8 * k) 8 = m.read (off + k) :=
  extract_wordOfBytes (fun k => m.read (off + k)) hk

theorem fieldsFrom_readAt {r : HostReg} {s : State} {fs : List ((w : Nat) × BitVec w)}
    (h : FieldsFrom (readReg r s) 0 fs) : FieldsFrom (readAt r.offset s) 0 fs := by
  rwa [readAt_offset]

theorem readAt_registry_entry {s : State} (h : s.Inv) {i : Nat} {p : Peer} (hp : s.registry[i]? = some p) {off k : Nat}
    (hk : k < 4) (hoff : off = 0x400 + 16 * i + 4 * k) : readAt off s = registryWord p k := by
  obtain ⟨⟨-, hmax, -⟩, -, -, ⟨hregistry, -⟩, -⟩ := h
  obtain ⟨hi, -⟩ := List.getElem?_eq_some_iff.mp hp
  rw [Params.cap] at hregistry
  rw [readAt_registry (by omega) hk hoff, regSlot, List.getD_eq_getElem?_getD, hp]
  rfl

/-- With bit 2 of `IRQ_EN` 0, the register shows the whole byte. -/
theorem fieldsFrom_irqEn {s : State} (h : s.Inv) : FieldsFrom (readReg .irqEn s) 0 [⟨8, s.irqEn⟩, ⟨24, 0⟩] := by
  obtain ⟨-, -, -, -, -, -, -, -, hbit, -⟩ := h
  have hmask : irqEnMasked s.irqEn = s.irqEn := by
    have hall : ∀ b : Byte, b.getLsbD 2 = false → irqEnMasked b = b := by decide
    exact hall _ hbit
  rw [readReg, hmask]
  exact fieldsFrom_zeroExtend _ (by decide)

/-- `ROUND` shows the count of targets, which fits its byte. -/
theorem readAt_round {s : State} (h : s.Inv) :
    (readAt 0x044 s).extractLsb' 0 8 = s.round.pos
      ∧ ((readAt 0x044 s).extractLsb' 8 8).toNat = s.session.targets.length ∧ (readAt 0x044 s).extractLsb' 16 16 = 0 := by
  obtain ⟨⟨-, hmax, -⟩, -, -, -, ⟨htargets, -⟩, -⟩ := h
  rw [Params.cap] at htargets
  obtain ⟨hpos, hcount, hrest⟩ := fieldsFrom_readAt (r := .round) (fieldsFrom_roundWord s)
  refine ⟨hpos, (congrArg BitVec.toNat hcount).trans ?_, hrest⟩
  rw [tgtCount, BitVec.toNat_ofNat, Nat.mod_eq_of_lt (by omega)]

theorem readAt_regCount {s : State} (h : s.Inv) : (readAt 0x04C s).toNat = s.registry.length := by
  obtain ⟨⟨-, hmax, -⟩, -, -, ⟨hregistry, -⟩, -⟩ := h
  rw [Params.cap] at hregistry
  have hread : readAt 0x04C s = regCountWord s := readAt_offset .regCount s
  rw [hread, regCountWord, regCount, BitVec.toNat_setWidth, BitVec.toNat_ofNat,
    Nat.mod_eq_of_lt (a := s.registry.length) (by omega), Nat.mod_eq_of_lt (by omega)]

theorem readAt_decInfo (s : State) :
    (readAt 0x0B8 s).extractLsb' 0 2 = addrModeBits (dstMode s.mem)
      ∧ (readAt 0x0B8 s).extractLsb' 2 2 = addrModeBits (srcMode s.mem)
      ∧ (readAt 0x0B8 s).extractLsb' 4 4 = 0 ∧ ((readAt 0x0B8 s).extractLsb' 8 8).toNat = headerLen s.mem
      ∧ (readAt 0x0B8 s).extractLsb' 16 8 = fcode s.mem ∧ (readAt 0x0B8 s).extractLsb' 24 8 = frameSeq s.mem := by
  obtain ⟨hdst, hsrc, hzero, hlen, hrest⟩ := fieldsFrom_readAt (r := .decInfo) (fieldsFrom_decInfoWord s.mem)
  refine ⟨hdst, hsrc, hzero, (congrArg BitVec.toNat hlen).trans ?_, hrest⟩
  have hle := headerLen_le s.mem
  rw [BitVec.toNat_ofNat, Nat.mod_eq_of_lt (by omega)]

/-- A 40-bit register: bits 31:0 in the low word, bits 39:32 in the low byte of the next (20_memory.md R66). -/
theorem readAt_stamp {lo hi : HostReg} {s : State} {a : Stamp} (hlo : readReg lo s = stampLo a) (hhi : readReg hi s = stampHi a)
    (hoff : hi.offset = lo.offset + 4) :
    readAt lo.offset s = a.extractLsb' 0 32 ∧ (readAt (lo.offset + 4) s).extractLsb' 0 8 = a.extractLsb' 32 8
      ∧ (readAt (lo.offset + 4) s).extractLsb' 8 24 = 0 := by
  rw [← hoff, readAt_offset, readAt_offset, hlo, hhi]
  exact ⟨rfl, fieldsFrom_stampHi a⟩

/-- Settles O27: the getters, then each register by the fields of its word and each window by its entry. -/
theorem legalReadReturnsTheRegister : Obligations.LegalReadReturnsTheRegister := by
  refine ⟨fun m => ?getters, fun s h => ?registers⟩
  case getters =>
    intro c d e len hl
    obtain ⟨hdbits, hdlen, -⟩ := addrModeOf_spec d
    obtain ⟨hebits, helen, -⟩ := addrModeOf_spec e
    have halen : alen (dstMode m) = len d := hdlen
    have hhl : headerLen m = hl := by rw [headerLen, halen, show alen (srcMode m) = len e from helen]
    have hsrc := halen ▸ @extract_srcShort m
    have hsrcExt := halen ▸ @extract_srcExt m
    have hts := hhl ▸ @extract_frameTs m
    exact ⟨hdbits, hebits, hhl, congrArg c hhl, rfl, fun _ => extract_dstShort m, fun _ => hsrc, fun _ => extract_dstExt m,
      fun _ => hsrcExt, fun _ => hts, BitVec.setWidth_eq_extractLsb' (by decide), BitVec.setWidth_eq_extractLsb' (by decide)⟩
  obtain ⟨⟨-, hmax, -⟩, -⟩ := id h
  intro f
  refine ⟨
    -- CTRL, STATUS, IRQ_EN, CMD
    fieldsFrom_readAt (r := .ctrl) (fieldsFrom_ctrlWord s), fieldsFrom_readAt (r := .status) (fieldsFrom_statusWord s.status),
    fieldsFrom_readAt (r := .irqEn) (fieldsFrom_irqEn h), readAt_offset .cmd s,
    -- CMD_STATUS, the arguments, CFG_OUT, EUI
    fieldsFrom_readAt (r := .cmdStatus) (fieldsFrom_cmdStatusWord s.cmdStatus), readAt_offset .argTs s, readAt_offset .argF32 s,
    readAt_stamp (lo := .argTimeLo) (hi := .argTimeHi) rfl rfl rfl,
    ⟨readAt_offset .argxALo s, readAt_offset .argxAHi s⟩, ⟨readAt_offset .argxBLo s, readAt_offset .argxBHi s⟩,
    fieldsFrom_readAt (r := .cfgOut) (fieldsFrom_wordOfBytes _ _ _ _), ⟨readAt_offset .euiLo s, readAt_offset .euiHi s⟩,
    -- SESSION, ROUND, SEQ, REG_COUNT, the timing registers, DIST_LIMIT, LAST_ABORT
    fieldsFrom_readAt (r := .session) (fieldsFrom_wordOfBytes _ _ _ _), readAt_round h,
    fieldsFrom_readAt (r := .seq) (fieldsFrom_zeroExtend s.seq (by decide)), readAt_regCount h,
    readAt_offset .turnaround s, readAt_offset .replyDelay s, readAt_offset .rxTimeout s, readAt_offset .backoffCyc s,
    readAt_offset .blinkDlyMin s, readAt_offset .blinkDlyMax s, readAt_offset .distLimit s,
    fieldsFrom_readAt (r := .lastAbort) (fieldsFrom_lastAbortWord s.lastAbort),
    -- the 40-bit timestamps, INLEN, CLEN
    ?stamps, fieldsFrom_readAt (r := .inlen) (fieldsFrom_zeroExtend s.inlen (by decide)),
    fieldsFrom_readAt (r := .clen) (fieldsFrom_zeroExtend s.clen (by decide)),
    -- the decoded-field registers
    readAt_decInfo s, fieldsFrom_readAt (r := .decShort) (fieldsFrom_decShortWord s.mem),
    ⟨readAt_offset .decDstExtLo s, readAt_offset .decDstExtHi s⟩, ⟨readAt_offset .decSrcExtLo s, readAt_offset .decSrcExtHi s⟩,
    readAt_offset .decTs s,
    -- the windows
    fun j hj k hk => ?inbuf, fun j hj k hk => ?cbuf, fun j hj k hk => ?targets, fun i p hp => ?entry,
    fun i hi hfree k hk => readAt_registry_free hi hk hfree, fun i hi => ?perTarget⟩
  case stamps =>
    simp only [List.forall_mem_cons]
    exact ⟨readAt_stamp (lo := .txTsLo) (hi := .txTsHi) rfl rfl rfl, readAt_stamp (lo := .rxTsLo) (hi := .rxTsHi) rfl rfl rfl,
      readAt_stamp (lo := .txPollTsLo) (hi := .txPollTsHi) rfl rfl rfl,
      readAt_stamp (lo := .txRangeTsLo) (hi := .txRangeTsHi) rfl rfl rfl,
      readAt_stamp (lo := .lastRxTsLo) (hi := .lastRxTsHi) rfl rfl rfl,
      readAt_stamp (lo := .phaseRxTsLo) (hi := .phaseRxTsHi) rfl rfl rfl,
      readAt_stamp (lo := .schedTxTsLo) (hi := .schedTxTsHi) rfl rfl rfl,
      readAt_stamp (lo := .ackTxTsLo) (hi := .ackTxTsHi) rfl rfl rfl, List.forall_mem_nil _⟩
  case inbuf =>
    show (readAt (0x100 + 4 * j) s).extractLsb' (8 * k) 8 = _
    rw [readAt_inbuf (by omega) (by omega) (by omega), extract_memWord s.mem _ hk]
  case cbuf =>
    show (readAt (0x180 + 4 * j) s).extractLsb' (8 * k) 8 = _
    rw [readAt_cbuf (by omega) (by omega) (by omega), extract_memWord s.mem _ hk]
  case targets =>
    show (readAt (0x200 + 4 * j) s).extractLsb' (8 * k) 8 = _
    rw [readAt_targets (by omega) (by omega)]
    exact extract_wordOfBytes (fun k => targetAt s (4 * j + k)) hk
  case entry =>
    have hword : ∀ {off k : Nat}, k < 4 → off = 0x400 + 16 * i + 4 * k → readAt off s = registryWord p k :=
      readAt_registry_entry h hp
    have hid : readAt (0x408 + 16 * i) s = p.id.zeroExtend 32 := hword (k := 2) (by decide) (by omega)
    obtain ⟨hlow, hhigh⟩ := hid ▸ fieldsFrom_zeroExtend (n := 32) p.id (by decide)
    exact ⟨hword (k := 0) (by decide) (by omega), hword (k := 1) (by decide) (by omega), hlow, hhigh,
      hword (k := 3) (by decide) (by omega)⟩
  case perTarget =>
    rw [Params.cap] at hi
    have hword : ∀ {off k : Nat}, k < 4 → off = 0x800 + 16 * i + 4 * k → readAt off s = perTargetWord s i k :=
      fun hk hoff => readAt_perTarget (by omega) hk hoff s
    have hhi : readAt (0x804 + 16 * i) s = stampHi (rtAt s i) := hword (k := 1) (by decide) (by omega)
    obtain ⟨hlow, hhigh⟩ := hhi ▸ fieldsFrom_stampHi (rtAt s i)
    exact ⟨hword (k := 0) (by decide) (by omega), hlow, hhigh, hword (k := 2) (by decide) (by omega),
      hword (k := 3) (by decide) (by omega)⟩

end Sys2Proof.Machine
end

section
/-! PROOFS. Command words (30_encoding.md R90 to R96): the opcode map as one table, the decoder, the encoder and the match and mask
columns read off it, and what a write to `CMD` does by its row. -/

namespace Sys2Proof.Machine

/-! ## The opcode map as a table (30_encoding.md R92) -/

/-- A row of the opcode map: the command its operand bytes make, and which bits of each byte are reserved. -/
structure CommandRow where
  instr : Byte → Byte → Byte → Instr
  reservedA : Byte
  reservedB : Byte
  reservedC : Byte

/-- The row of an opcode (30_encoding.md R92). It is tied to the model by `decode_eq_commandRow`, `matchAndMask_eq_commandRow`
and `encode_command`. -/
def commandRow : Nat → Option CommandRow
  | 0x01 => some ⟨fun _ _ _ => .buildBlink, 0xFF, 0xFF, 0xFF⟩
  | 0x02 => some ⟨fun _ _ _ => .buildBcast, 0xFF, 0xFF, 0xFF⟩
  | 0x03 => some ⟨fun a b c => .buildConfig a b c, 0, 0, 0⟩
  | 0x04 => some ⟨fun a b _ => .buildRanging a b, 0, 0, 0xFF⟩
  | 0x05 => some ⟨fun _ _ _ => .parse, 0xFF, 0xFF, 0xFF⟩
  | 0x06 => some ⟨fun _ _ _ => .parseConfig, 0xFF, 0xFF, 0xFF⟩
  | 0x10 => some ⟨fun _ _ _ => .regContains, 0xFF, 0xFF, 0xFF⟩
  | 0x11 => some ⟨fun _ _ _ => .regAdd, 0xFF, 0xFF, 0xFF⟩
  | 0x12 => some ⟨fun a _ _ => .regRemove a, 0, 0xFF, 0xFF⟩
  | 0x13 => some ⟨fun a _ _ => .regUpdateId a, 0, 0xFF, 0xFF⟩
  | 0x14 => some ⟨fun a _ _ => .regSetDist a, 0, 0xFF, 0xFF⟩
  | 0x20 => some ⟨fun a b c => .sessionSet a b c, 0, 0, 0⟩
  | 0x21 => some ⟨fun a _ _ => .sendConfig a, 0, 0xFF, 0xFF⟩
  | 0x22 => some ⟨fun a _ _ => .txSend a, 0xFC, 0xFF, 0xFF⟩
  | 0x23 => some ⟨fun a _ _ => .rxEnable a, 0xFE, 0xFF, 0xFF⟩
  | _ => none

namespace CommandRow

/-- The command a word of the row makes, its reserved bits aside (30_encoding.md R91). -/
def command (r : CommandRow) (w : Word) : Instr := r.instr (fieldA w) (fieldB w) (fieldC w)

/-- Every reserved bit of a word of the row is 0 (30_encoding.md R93). -/
def reservedZero (r : CommandRow) (w : Word) : Bool :=
  fieldA w &&& r.reservedA == 0 && fieldB w &&& r.reservedB == 0 && fieldC w &&& r.reservedC == 0

theorem reservedZero_iff {r : CommandRow} {w : Word} :
    r.reservedZero w = true ↔ fieldA w &&& r.reservedA = 0 ∧ fieldB w &&& r.reservedB = 0 ∧ fieldC w &&& r.reservedC = 0 := by
  simp [reservedZero, and_assoc]

end CommandRow

/-! ## What the model's definitions say of a row -/

/-- A byte under the mask of its eight bits, in the spelling `simp` gives the mask. -/
theorem byte_and_ff (a : Byte) : a &&& 255#8 = a := BitVec.and_allOnes

/-- The decoder reads the row of the word's opcode (30_encoding.md R93, R94). -/
theorem decode_eq_commandRow (w : Word) :
    decode w =
      (commandRow (fieldOpc w).toNat).elim .illegalOpcode fun r => ifReservedZero (r.reservedZero w) (r.command w) := by
  unfold decode
  generalize (fieldOpc w).toNat = n
  unfold commandRow
  split
  case h_16 => simp
  all_goals
    simp [CommandRow.reservedZero, CommandRow.command, txFlagsLegal, rxFlagsLegal, ifReservedZero, byte_and_ff]

/-- The match of a row is its opcode, and its mask the opcode byte with the reserved bits (30_encoding.md R93). -/
theorem matchAndMask_eq_commandRow (n : Nat) :
    matchAndMask n =
      (commandRow n).map fun r =>
        (packWord (BitVec.ofNat 8 n) 0 0 0, packWord 0xFF r.reservedA r.reservedB r.reservedC) := by
  unfold matchAndMask commandRow
  split
  case h_16 => simp
  all_goals rfl

theorem opcode_command {w : Word} {r : CommandRow} (h : commandRow (fieldOpc w).toNat = some r) :
    (r.command w).opcode = fieldOpc w := by
  suffices hop : ∀ n, commandRow n = some r → (r.command w).opcode = BitVec.ofNat 8 n by
    simpa using hop _ h
  intro n hn
  unfold commandRow at hn
  split at hn <;> cases hn <;> rfl

/-- A word of a row whose reserved bits are 0 is the word of the row's command: the encoder writes 0 only over reserved bytes. -/
theorem encode_command {w : Word} {r : CommandRow} (h : commandRow (fieldOpc w).toNat = some r)
    (hw : r.reservedZero w = true) : encode (r.command w) = w := by
  have hpack : encode (r.command w) = packWord (r.command w).opcode (fieldA w) (fieldB w) (fieldC w) := by
    obtain ⟨ha, hb, hc⟩ := CommandRow.reservedZero_iff.mp hw
    unfold commandRow at h
    split at h <;> cases h <;> simp_all [CommandRow.command, encode, byte_and_ff]
  rw [hpack, opcode_command h, packWord_fields]

/-- Only TX_SEND and RX_ENABLE have reserved bits inside an operand, the ones of their rows (30_encoding.md R92). -/
theorem wellFormed_command {w : Word} {r : CommandRow} (h : commandRow (fieldOpc w).toNat = some r)
    (hw : r.reservedZero w = true) : (r.command w).wellFormed = true := by
  obtain ⟨ha, -, -⟩ := CommandRow.reservedZero_iff.mp hw
  unfold commandRow at h
  split at h <;> cases h
  case h_14 | h_15 => -- TX_SEND and RX_ENABLE
    exact beq_iff_eq.mpr ha
  all_goals rfl

/-- The match and mask of a row ask that its reserved bits are 0 (30_encoding.md R93). -/
theorem and_mask_eq_match_iff (r : CommandRow) (w : Word) :
    w &&& packWord 0xFF r.reservedA r.reservedB r.reservedC = packWord (fieldOpc w) 0 0 0 ↔ r.reservedZero w = true := by
  have hand : w &&& packWord 0xFF r.reservedA r.reservedB r.reservedC =
      packWord (fieldOpc w) (fieldA w &&& r.reservedA) (fieldB w &&& r.reservedB) (fieldC w &&& r.reservedC) := by
    conv_lhs => rw [← packWord_fields w, packWord_and]
    congr 1
    exact byte_and_ff _
  rw [hand, CommandRow.reservedZero_iff]
  constructor
  · intro h
    exact (packWord_inj h).2
  · rintro ⟨ha, hb, hc⟩
    rw [ha, hb, hc]

/-- The opcodes without a row (30_encoding.md R94). -/
theorem matchAndMask_eq_none_iff : ∀ opc : Byte, matchAndMask opc.toNat = none ↔
    opc = 0x00 ∨ (0x07 ≤ opc ∧ opc ≤ 0x0F) ∨ (0x15 ≤ opc ∧ opc ≤ 0x1F) ∨ 0x24 ≤ opc := by
  decide

/-! ## Decoding by the row -/

theorem decode_of_no_row {w : Word} (h : matchAndMask (fieldOpc w).toNat = none) : decode w = .illegalOpcode := by
  rw [matchAndMask_eq_commandRow, Option.map_eq_none_iff] at h
  rw [decode_eq_commandRow, h, Option.elim_none]

/-- A word that decodes has a row, its reserved bits are 0, and the command is the row's. -/
theorem decode_eq_instr_cases {w : Word} {i : Instr} (h : decode w = .instr i) :
    ∃ r, commandRow (fieldOpc w).toNat = some r ∧ r.reservedZero w = true ∧ r.command w = i := by
  rw [decode_eq_commandRow] at h
  cases hrow : commandRow (fieldOpc w).toNat with
  | none => simp [hrow] at h
  | some r =>
    rw [hrow, Option.elim_some, ifReservedZero] at h
    split at h <;> cases h
    exact ⟨r, rfl, ‹_›, rfl⟩

/-- A word whose opcode has a row is the row's command or is rejected, by its match and mask (30_encoding.md R93). -/
theorem decode_of_row {w m k : Word} (h : matchAndMask (fieldOpc w).toNat = some (m, k)) :
    (w &&& k ≠ m → decode w = .reservedField) ∧ (w &&& k = m → ∃ i, decode w = .instr i ∧ i.opcode = fieldOpc w) := by
  rw [matchAndMask_eq_commandRow, Option.map_eq_some_iff] at h
  obtain ⟨r, hrow, hmk⟩ := h
  cases hmk
  rw [BitVec.ofNat_toNat, BitVec.setWidth_eq, Ne, and_mask_eq_match_iff, decode_eq_commandRow, hrow, Option.elim_some]
  refine ⟨fun hw => ?_, fun hw => ⟨r.command w, ?_, opcode_command hrow⟩⟩
  · rw [ifReservedZero, if_neg hw]
  · rw [ifReservedZero, if_pos hw]

theorem runCommand_of_illegalOpcode {w : Word} (h : decode w = .illegalOpcode) (s : State) :
    runCommand w s = .next (refuse (fieldOpc w) .illegalOpcode s) := by
  rw [runCommand, h]

theorem runCommand_of_reservedField {w : Word} (h : decode w = .reservedField) (s : State) :
    runCommand w s = .next (refuse (fieldOpc w) .reservedField s) := by
  rw [runCommand, h]

/-! ## The statements -/

/-- Settles O1: by the command. The decoder finds every operand in its byte and 0 in the others; the two commands with flags ask
that the reserved ones are 0. -/
theorem decodeOfEncode : Obligations.DecodeOfEncode := by
  intro i h
  cases i with
  | txSend flags => exact (decode_packWord 0x22 flags 0 0).trans (by simpa [ifReservedZero, Instr.wellFormed] using h)
  | rxEnable flags => exact (decode_packWord 0x23 flags 0 0).trans (by simpa [ifReservedZero, Instr.wellFormed] using h)
  | _ => exact decode_packWord ..

/-- Settles O2: the command is the one of the word's row, which the word spells. -/
theorem encodeOfDecode : Obligations.EncodeOfDecode := by
  intro w i h
  obtain ⟨r, hrow, hzero, rfl⟩ := decode_eq_instr_cases h
  exact ⟨encode_command hrow hzero, wellFormed_command hrow hzero⟩

/-- Settles O3: a write to `CMD` runs or refuses the word as it decodes, and it decodes by its row. -/
theorem everyWordRunsOrIsRefused : Obligations.EveryWordRunsOrIsRefused := by
  intro w s opc
  refine ⟨matchAndMask_eq_none_iff opc, fun hnone => ?_, fun m k hrow => ?_⟩
  · exact runCommand_of_illegalOpcode (decode_of_no_row hnone) s
  · obtain ⟨hrefused, hruns⟩ := decode_of_row hrow
    refine ⟨fun hw => runCommand_of_reservedField (hrefused hw) s, fun hw => ?_⟩
    obtain ⟨i, hdecode, hop⟩ := hruns hw
    exact ⟨i, hdecode, hop, runCommand_of_decode hdecode s⟩

/-- Settles O4: the decoder evaluated on each word. -/
theorem sampleWordsDecode : Obligations.SampleWordsDecode := by
  unfold Obligations.SampleWordsDecode
  decide

end Sys2Proof.Machine
end

section
/-! PROOFS. The codec commands (41_codec.md R121 to R128): what each does in role NONE, said once, and the frame every build
leaves in `CBUF`. -/

namespace Sys2Proof.Machine

/-! ## Commands that need role NONE, and the builds -/

theorem inRoleNone_eq_run {s : State} (h : s.role = .none) (opc : Byte) (run : State → State) :
    inRoleNone opc run s = .next (run s) := by
  rw [inRoleNone, if_pos h]

theorem inRoleNone_eq_refuse {s : State} (h : s.role ≠ .none) (opc : Byte) (run : State → State) :
    inRoleNone opc run s = .next (refuse opc .wrongRole s) := by
  rw [inRoleNone, if_neg h]

/-- The decoder's test of a command whose three operand bytes are reserved (30_encoding.md R93). -/
theorem ifReservedZero_bytes (a b c : Byte) (i : Instr) :
    ifReservedZero (a == 0 && b == 0 && c == 0) i = if a = 0 ∧ b = 0 ∧ c = 0 then .instr i else .reservedField := by
  simp [ifReservedZero, and_assoc]

theorem holdsFrame_buildFrame (opc : Byte) {f : List Byte} (s : State) (h : f.length ≤ 127) :
    HoldsFrame f s (buildFrame opc f s) :=
  holdsFrame_of_eq (holdsFrame_storeC f s h) rfl rfl

/-- A build changes `CBUF`, `CLEN` and `CMD_STATUS` (41_codec.md R122). -/
theorem buildFrame_eq {f : List Byte} {n : Byte} (hn : f.length = n.toNat) (opc : Byte) (s : State) :
    buildFrame opc f s = { s with mem := (buildFrame opc f s).mem, clen := n, cmdStatus := ⟨opc, true, .none, 0⟩ } := by
  have hclen : BitVec.ofNat 8 f.length = n := by rw [hn, BitVec.ofNat_toNat, BitVec.setWidth_eq]
  rw [← hclen]
  rfl

/-- A command that answers the build of a frame of `n` bytes, as the statements of the builds say it. -/
theorem built_of_eq_buildFrame {r : Result} {opc n : Byte} {f : List Byte} {s : State} (hr : r = .next (buildFrame opc f s))
    (hn : f.length = n.toNat) (hle : f.length ≤ 127) :
    ∃ t, r = .next t ∧ t = { s with mem := t.mem, clen := n, cmdStatus := ⟨opc, true, .none, 0⟩ } ∧ HoldsFrame f s t :=
  ⟨_, hr, buildFrame_eq hn opc s, holdsFrame_buildFrame opc s hle⟩

/-! ## The commands -/

/-- The commands of opcodes 1 to 6, the codec's, are refused with WRONG_ROLE outside role NONE (41_codec.md R121). -/
theorem exec_codec_wrongRole {i : Instr} {s : State} (hi : i.opcode ≤ 0x06) (h : s.role ≠ .none) :
    exec i s = .next (refuse i.opcode .wrongRole s) := by
  cases i with
  | buildBlink => exact inRoleNone_eq_refuse h _ _
  | buildBcast => exact inRoleNone_eq_refuse h _ _
  | buildConfig a b c => exact inRoleNone_eq_refuse h _ _
  | buildRanging fc src => rw [exec, execBuildRanging, inRoleNone_eq_refuse h]
  | parse => rw [exec, execParse, inRoleNone_eq_refuse h]
  | parseConfig => rw [exec, execParseConfig, inRoleNone_eq_refuse h]
  | _ => simp [Instr.opcode] at hi

theorem exec_buildBlink {s : State} (h : s.role = .none) :
    exec .buildBlink s = .next (buildFrame 0x01 (blinkFrame s.seq s.args.xA s.args.xB) s) :=
  inRoleNone_eq_run h _ _

theorem exec_buildBcast {s : State} (h : s.role = .none) :
    exec .buildBcast s = .next (buildFrame 0x02 (bcastFrame s.seq s.args.xB) s) :=
  inRoleNone_eq_run h _ _

theorem exec_buildConfig {s : State} (h : s.role = .none) (a b c : Byte) :
    exec (.buildConfig a b c) s = .next (buildFrame 0x03 (configFrame s.seq s.args.xA s.args.xB ⟨a, b, c⟩) s) :=
  inRoleNone_eq_run h _ _

/-- The five steady-state codes are 4 to 8 (30_encoding.md R102). -/
theorem isRangingCode_iff : ∀ fc : Byte, isRangingCode fc = true ↔ 0x04 ≤ fc ∧ fc ≤ 0x08 := by decide

theorem exec_buildRanging {s : State} {fc : Byte} (h : s.role = .none) (hfc : isRangingCode fc = true) (src : Byte) :
    exec (.buildRanging fc src) s
      = .next (buildFrame 0x04 (rangingFrame s.seq (argDestShort s) src fc (rangingPayload fc s)) s) := by
  rw [exec, execBuildRanging, inRoleNone_eq_run h, if_pos hfc]
  rfl

theorem exec_buildRanging_badOperand {s : State} {fc : Byte} (h : s.role = .none) (hfc : ¬isRangingCode fc = true) (src : Byte) :
    exec (.buildRanging fc src) s = .next (refuse 0x04 .badOperand s) := by
  rw [exec, execBuildRanging, inRoleNone_eq_run h, if_neg hfc]
  rfl

/-- The payload of an ACK or a FINAL is the four bytes of the reply delay, that of the other codes is empty. -/
theorem length_rangingPayload (fc : Byte) (s : State) :
    (rangingPayload fc s).length = if fc = 0x05 ∨ fc = 0x07 then 4 else 0 := by
  rw [rangingPayload, apply_ite List.length, length_le4, List.length_nil]
  rfl

theorem inlenAccepted_iff (s : State) : inlenAccepted s = true ↔ s.inlen.toNat ≤ 127 := decide_eq_true_iff

theorem exec_parse_accepted {s : State} (h : s.role = .none) (hlen : s.inlen.toNat ≤ 127) :
    exec .parse s = .next (finish 0x05 true 0 (storeC (mailboxFrame s) s)) := by
  rw [exec, execParse, inRoleNone_eq_run h, if_pos ((inlenAccepted_iff s).mpr hlen)]
  rfl

theorem exec_parse_oversized {s : State} (h : s.role = .none) (hlen : 127 < s.inlen.toNat) :
    exec .parse s = .next (finish 0x05 false 0 s) := by
  rw [exec, execParse, inRoleNone_eq_run h, if_neg (by rw [inlenAccepted_iff]; omega)]
  rfl

/-- `parseCfg` answers the three bytes at the payload offset where the code and the length allow it (41_codec.md R138). -/
theorem parseCfg_of_covered {m : Memory} {clen : Byte} (h : fcode m = 0x03 ∧ payloadOff m + 3 ≤ clen.toNat) :
    parseCfg m clen = some ⟨cbufByte m (payloadOff m), cbufByte m (payloadOff m + 1), cbufByte m (payloadOff m + 2)⟩ :=
  if_pos h

theorem parseCfg_of_not_covered {m : Memory} {clen : Byte} (h : ¬(fcode m = 0x03 ∧ payloadOff m + 3 ≤ clen.toNat)) :
    parseCfg m clen = none :=
  if_neg h

theorem exec_parseConfig_some {s : State} {c : ConfigTriple} (h : s.role = .none) (hc : parseCfg s.mem s.clen = some c) :
    exec .parseConfig s = .next (finish 0x06 true 0 { s with cfgOut := c }) := by
  rw [exec, execParseConfig, inRoleNone_eq_run h, hc]
  rfl

theorem exec_parseConfig_none {s : State} (h : s.role = .none) (hc : parseCfg s.mem s.clen = none) :
    exec .parseConfig s = .next (finish 0x06 false 0 s) := by
  rw [exec, execParseConfig, inRoleNone_eq_run h, hc]
  rfl

/-! ## The statements -/

/-- Settles O14: by whether the frame covers the triple. -/
theorem parseConfigResult : Obligations.ParseConfigResult := by
  refine ⟨fun a b c => (decode_packWord 0x06 a b c).trans (ifReservedZero_bytes a b c _), fun s => ⟨?_, ?_, ?_⟩⟩
  · exact exec_codec_wrongRole (by simp [Instr.opcode])
  · exact fun hrole hcovered => exec_parseConfig_some hrole (parseCfg_of_covered hcovered)
  · exact fun hrole hcovered => exec_parseConfig_none hrole (parseCfg_of_not_covered hcovered)

/-- Settles O9: the blink's 24 bytes are stored. -/
theorem buildBlinkResult : Obligations.BuildBlinkResult := by
  refine ⟨fun a b c => (decode_packWord 0x01 a b c).trans (ifReservedZero_bytes a b c _), fun s => ⟨?_, fun hrole => ?_⟩⟩
  · exact exec_codec_wrongRole (by simp [Instr.opcode])
  · exact built_of_eq_buildFrame (exec_buildBlink hrole) (length_blinkFrame ..) (by simp)

/-- Settles O10: the broadcast's 18 bytes are stored. -/
theorem buildBcastResult : Obligations.BuildBcastResult := by
  refine ⟨fun a b c => (decode_packWord 0x02 a b c).trans (ifReservedZero_bytes a b c _), fun s => ⟨?_, fun hrole => ?_⟩⟩
  · exact exec_codec_wrongRole (by simp [Instr.opcode])
  · exact built_of_eq_buildFrame (exec_buildBcast hrole) (length_bcastFrame ..) (by simp)

/-- Settles O11: the config's 27 bytes are stored, whatever the three operands are. -/
theorem buildConfigResult : Obligations.BuildConfigResult := by
  refine fun init assigned total => ⟨decode_packWord 0x03 init assigned total, fun s => ⟨?_, fun hrole => ?_⟩⟩
  · exact exec_codec_wrongRole (by simp [Instr.opcode])
  · have hbuilt := built_of_eq_buildFrame (n := 27) (exec_buildConfig hrole init assigned total)
      (length_configFrame ..) (by simp)
    rwa [configFrame_eq] at hbuilt

/-- Settles O12: the role is tested before the code, and the code decides the payload and so the length. -/
theorem buildRangingResult : Obligations.BuildRangingResult := by
  refine fun fc src c => ⟨(decode_packWord 0x04 fc src c).trans (by simp [ifReservedZero]), fun s => ⟨?_, ?_, ?_⟩⟩
  · exact exec_codec_wrongRole (by simp [Instr.opcode])
  · intro hrole hfc
    exact exec_buildRanging_badOperand hrole (by rw [isRangingCode_iff]; bv_omega) src
  · intro hrole hlo hhi
    have hbuild := exec_buildRanging hrole ((isRangingCode_iff fc).mpr ⟨hlo, hhi⟩) src
    have hlen := length_rangingPayload fc s
    have hbuilt := built_of_eq_buildFrame (n := if fc = 0x05 ∨ fc = 0x07 then 16 else 12) hbuild
      (by rw [length_rangingFrame, hlen]; split <;> rfl) (by rw [length_rangingFrame, hlen]; split <;> decide)
    rwa [rangingFrame_eq] at hbuilt

/-- Settles O13: the mailbox frame is stored if its length is accepted. -/
theorem parseResult : Obligations.ParseResult := by
  refine ⟨fun a b c => (decode_packWord 0x05 a b c).trans (ifReservedZero_bytes a b c _), fun s => ⟨?_, ?_, ?_⟩⟩
  · exact exec_codec_wrongRole (by simp [Instr.opcode])
  · intro hrole hlen
    have hle : (mailboxFrame s).length ≤ 127 := by simpa [mailboxFrame] using hlen
    exact ⟨_, exec_parse_accepted hrole hlen, rfl, holdsFrame_of_eq (holdsFrame_storeC _ s hle) rfl rfl⟩
  · exact fun hrole hlen => exec_parse_oversized hrole hlen

end Sys2Proof.Machine
end

section
/-! PROOFS. What the getters read of a frame `mkFrame` built (30_encoding.md R98 to R103; 41_codec.md R120, R129 to R138), and a
build followed by a PARSE of its bytes (41_codec.md R139). -/

namespace Sys2Proof.Machine

/-! ## A part of the frame in `CBUF` -/

/-- `CBUF` is the frame `f`, zero-filled: the clause of `HoldsFrame` about one memory. -/
def CbufHolds (f : List Byte) (m : Memory) : Prop := ∀ k < bufSize, cbufByte m k = f.getD k 0

/-- Byte `i` of the part `x` of a frame that starts at offset `k`. -/
theorem CbufHolds.cbufByte_part {m : Memory} {f p x q : List Byte} {k i : Nat} (h : CbufHolds f m) (hf : f = p ++ (x ++ q))
    (hp : p.length = k) (hi : i < x.length) (hlen : f.length ≤ bufSize) : cbufByte m (k + i) = x.getD i 0 := by
  subst hf hp
  simp only [List.length_append] at hlen
  rw [h _ (by omega), List.getD_append_right _ _ _ _ (Nat.le_add_right _ _), Nat.add_sub_cancel_left,
    List.getD_append _ _ _ _ hi]

/-- The value of the bytes of `CBUF` from offset `k` up is that of the part of the frame that starts there. -/
theorem cbufValue_eq_leValue {m : Memory} {x : List Byte} {k n : Nat} (hn : x.length = n)
    (h : ∀ i < x.length, cbufByte m (k + i) = x.getD i 0) : cbufValue m k n = leValue x := by
  subst hn
  refine congrArg leValue (List.ext_getElem (Memory.length_bytes ..) fun i _ hi => ?_)
  rw [Memory.getElem_bytes, Nat.add_assoc]
  exact (h i hi).trans (List.getD_eq_getElem _ _ hi)

theorem ofNat_leValue_le2 (v : BitVec 16) : BitVec.ofNat 16 (leValue (le2 v)) = v := by
  rw [leValue_le2, BitVec.ofNat_toNat, BitVec.setWidth_eq]

theorem ofNat_leValue_le4 (v : Word) : BitVec.ofNat 32 (leValue (le4 v)) = v := by
  rw [leValue_le4, BitVec.ofNat_toNat, BitVec.setWidth_eq]

theorem ofNat_leValue_le8 (v : ExtAddr) : BitVec.ofNat 64 (leValue (le8 v)) = v := by
  rw [leValue_le8, BitVec.ofNat_toNat, BitVec.setWidth_eq]

/-! ## The parts of a built frame -/

theorem length_mkFrame (dm sm : AddrMode) (seq : Byte) (dst src : List Byte) (fc : Byte) (pl : List Byte) :
    (mkFrame dm sm seq dst src fc pl).length = 5 + dst.length + src.length + 1 + pl.length + 2 := by
  simp [mkFrame, checksumLen]
  omega

/-- The mode bits of frame-control byte 1 name the modes they were made of (30_encoding.md R99). -/
theorem addrModeOf_fc1 (dm sm : AddrMode) :
    addrModeOf ((fc1 dm sm).extractLsb' 2 2) = dm ∧ addrModeOf ((fc1 dm sm).extractLsb' 6 2) = sm := by
  cases dm <;> cases sm <;> decide

theorem alen_le (a : AddrMode) : alen a ≤ 8 := by cases a <;> decide

/-- `wellFormed` as a proposition (41_codec.md R137). -/
theorem wellFormed_iff (m : Memory) (clen : Byte) :
    wellFormed m clen = true ↔ dstMode m ≠ .reserved ∧ srcMode m ≠ .reserved ∧ headerLen m + 1 ≤ clen.toNat
      ∧ (fcode m = 0x05 ∨ fcode m = 0x07 → payloadOff m + 4 ≤ clen.toNat) := by
  simp [wellFormed, carriesTs, funcCodeByte, and_assoc, imp_iff_not_or]

/-- What `mkFrame` is given (41_codec.md R120). -/
structure FrameParts where
  dm : AddrMode
  sm : AddrMode
  seq : Byte
  dst : List Byte
  src : List Byte
  fc : Byte
  pl : List Byte

namespace FrameParts

/-- The frame built of the parts. -/
def frame (p : FrameParts) : List Byte := mkFrame p.dm p.sm p.seq p.dst p.src p.fc p.pl

/-- The parts of the frame formats: no reserved mode, addresses as long as their modes say, and at most four bytes of payload, four
in an ACK and a FINAL (30_encoding.md R100, R103). -/
structure Fits (p : FrameParts) : Prop where
  dm_ne : p.dm ≠ .reserved
  sm_ne : p.sm ≠ .reserved
  length_dst : p.dst.length = alen p.dm
  length_src : p.src.length = alen p.sm
  length_pl_le : p.pl.length ≤ 4
  length_pl : p.fc = 0x05 ∨ p.fc = 0x07 → p.pl.length = 4

theorem Fits.length_frame_le {p : FrameParts} (hp : p.Fits) : p.frame.length ≤ 127 := by
  have hdm := alen_le p.dm
  have hsm := alen_le p.sm
  obtain ⟨-, -, hdst, hsrc, hpl, -⟩ := hp
  rw [frame, length_mkFrame]
  omega

/-- The codec buffer of `v` holds the frame of the parts. -/
structure HeldBy (p : FrameParts) (v : State) : Prop where
  fits : p.Fits
  clen : v.clen.toNat = p.frame.length
  bytes : CbufHolds p.frame v.mem

end FrameParts

/-! ## The getters of a built frame -/

namespace FrameParts.HeldBy

variable {p : FrameParts} {v : State} (h : p.HeldBy v)
include h

theorem dstMode_eq : dstMode v.mem = p.dm := by
  rw [dstMode, h.bytes 1 (by decide)]
  exact (addrModeOf_fc1 p.dm p.sm).1

theorem srcMode_eq : srcMode v.mem = p.sm := by
  rw [srcMode, h.bytes 1 (by decide)]
  exact (addrModeOf_fc1 p.dm p.sm).2

theorem frameSeq_eq : frameSeq v.mem = p.seq := h.bytes 2 (by decide)

theorem headerLen_eq : headerLen v.mem = 5 + alen p.dm + alen p.sm := by
  rw [headerLen, h.dstMode_eq, h.srcMode_eq]

/-- Byte `i` of a part that starts at offset `k` of the frame. -/
theorem cbufByte_part {a x q : List Byte} {k i : Nat} (hframe : p.frame = a ++ (x ++ q)) (ha : a.length = k)
    (hi : i < x.length) : cbufByte v.mem (k + i) = x.getD i 0 :=
  h.bytes.cbufByte_part hframe ha hi (Nat.le_succ_of_le h.fits.length_frame_le)

theorem cbufValue_dst : cbufValue v.mem 5 (alen p.dm) = leValue p.dst :=
  cbufValue_eq_leValue h.fits.length_dst fun _ hi =>
    h.cbufByte_part (a := [fc0, fc1 p.dm p.sm, p.seq] ++ le2 netId)
      (by simp only [frame, mkFrame, List.append_assoc]; rfl) (by simp) hi

theorem cbufValue_src : cbufValue v.mem (5 + alen p.dm) (alen p.sm) = leValue p.src :=
  cbufValue_eq_leValue h.fits.length_src fun _ hi =>
    h.cbufByte_part (a := [fc0, fc1 p.dm p.sm, p.seq] ++ le2 netId ++ p.dst)
      (by simp only [frame, mkFrame, List.append_assoc]; rfl) (by simp [h.fits.length_dst]; omega) hi

theorem fcode_eq : fcode v.mem = p.fc :=
  h.cbufByte_part (a := [fc0, fc1 p.dm p.sm, p.seq] ++ le2 netId ++ p.dst ++ p.src) (x := [p.fc]) (k := headerLen v.mem) (i := 0)
    (by simp only [frame, mkFrame, List.append_assoc]; rfl)
    (by simp [h.headerLen_eq, h.fits.length_dst, h.fits.length_src]; omega) (by simp)

theorem cbufByte_payload {i : Nat} (hi : i < p.pl.length) : cbufByte v.mem (payloadOff v.mem + i) = p.pl.getD i 0 :=
  h.cbufByte_part (a := [fc0, fc1 p.dm p.sm, p.seq] ++ le2 netId ++ p.dst ++ p.src ++ [p.fc])
    (by simp only [frame, mkFrame, List.append_assoc]; rfl)
    (by simp [payloadOff, h.headerLen_eq, h.fits.length_dst, h.fits.length_src]; omega) hi

/-- The length counts what stands before the payload, the payload and the checksum (30_encoding.md R98). -/
theorem clen_eq : v.clen.toNat = payloadOff v.mem + p.pl.length + 2 := by
  rw [h.clen, frame, length_mkFrame, payloadOff, h.headerLen_eq, h.fits.length_dst, h.fits.length_src]

/-- Every built frame is well formed (41_codec.md R139). -/
theorem wellFormed_eq : wellFormed v.mem v.clen = true := by
  have hclen := h.clen_eq
  rw [wellFormed_iff, h.dstMode_eq, h.srcMode_eq, h.fcode_eq]
  refine ⟨h.fits.dm_ne, h.fits.sm_ne, by rw [payloadOff] at hclen; omega, fun hfc => ?_⟩
  have hpl := h.fits.length_pl hfc
  omega

theorem dstShort_eq {x : BitVec 16} (hdm : p.dm = .short) (hdst : p.dst = le2 x) : dstShort v.mem = x := by
  have hvalue := h.cbufValue_dst
  rw [hdm, hdst] at hvalue
  rw [dstShort, if_pos (h.dstMode_eq.trans hdm)]
  exact (congrArg (BitVec.ofNat 16) hvalue).trans (ofNat_leValue_le2 x)

theorem dstExt_eq {x : ExtAddr} (hdm : p.dm = .extended) (hdst : p.dst = le8 x) : dstExt v.mem = x := by
  have hvalue := h.cbufValue_dst
  rw [hdm, hdst] at hvalue
  rw [dstExt, if_pos (h.dstMode_eq.trans hdm)]
  exact (congrArg (BitVec.ofNat 64) hvalue).trans (ofNat_leValue_le8 x)

theorem srcShort_eq {x : BitVec 16} (hsm : p.sm = .short) (hsrc : p.src = le2 x) : srcShort v.mem = x := by
  have hvalue := h.cbufValue_src
  rw [hsm, hsrc] at hvalue
  rw [srcShort, if_pos (h.srcMode_eq.trans hsm), h.dstMode_eq]
  exact (congrArg (BitVec.ofNat 16) hvalue).trans (ofNat_leValue_le2 x)

theorem srcExt_eq {x : ExtAddr} (hsm : p.sm = .extended) (hsrc : p.src = le8 x) : srcExt v.mem = x := by
  have hvalue := h.cbufValue_src
  rw [hsm, hsrc] at hvalue
  rw [srcExt, if_pos (h.srcMode_eq.trans hsm), h.dstMode_eq]
  exact (congrArg (BitVec.ofNat 64) hvalue).trans (ofNat_leValue_le8 x)

theorem frameTs_eq {x : Word} (hpl : p.pl = le4 x) : frameTs v.mem = x := by
  have hvalue : cbufValue v.mem (payloadOff v.mem) 4 = leValue p.pl :=
    cbufValue_eq_leValue (by simp [hpl]) fun _ hi => h.cbufByte_payload hi
  rw [frameTs, hvalue, hpl, ofNat_leValue_le4]

theorem parseCfg_eq {a b c : Byte} (hfc : p.fc = 0x03) (hpl : p.pl = [a, b, c]) :
    parseCfg v.mem v.clen = some ⟨a, b, c⟩ := by
  have hbyte : ∀ i < 3, cbufByte v.mem (payloadOff v.mem + i) = [a, b, c].getD i 0 := fun i hi => by
    rw [h.cbufByte_payload (by simpa [hpl] using hi), hpl]
  have hclen := h.clen_eq
  rw [hpl, List.length_cons] at hclen
  rw [parseCfg_of_covered ⟨h.fcode_eq.trans hfc, by omega⟩, hbyte 1 (by decide), hbyte 2 (by decide)]
  exact congrArg (fun x => some (ConfigTriple.mk x b c)) (hbyte 0 (by decide))

end FrameParts.HeldBy

/-! ## The parts of the four builds -/

/-- The parts of BUILD_BLINK (41_codec.md R123). -/
def blinkParts (s : State) : FrameParts :=
  ⟨.extended, .extended, s.seq, le8 s.args.xA, le8 s.args.xB, 0x01, []⟩

/-- The parts of BUILD_BCAST (41_codec.md R124). -/
def bcastParts (s : State) : FrameParts := ⟨.short, .extended, s.seq, le2 0xFFFF, le8 s.args.xB, 0x02, []⟩

/-- The parts of BUILD_CONFIG (41_codec.md R125). -/
def configParts (a b c : Byte) (s : State) : FrameParts :=
  ⟨.extended, .extended, s.seq, le8 s.args.xA, le8 s.args.xB, 0x03, [a, b, c]⟩

/-- The parts of BUILD_RANGING (41_codec.md R126). -/
def rangingParts (fc src : Byte) (s : State) : FrameParts :=
  ⟨.short, .short, s.seq, le2 (argDestShort s), le2 (shortOfId src), fc, rangingPayload fc s⟩

theorem blinkFrame_eq_frame (s : State) : blinkFrame s.seq s.args.xA s.args.xB = (blinkParts s).frame := rfl

theorem bcastFrame_eq_frame (s : State) : bcastFrame s.seq s.args.xB = (bcastParts s).frame := rfl

theorem configFrame_eq_frame (a b c : Byte) (s : State) :
    configFrame s.seq s.args.xA s.args.xB ⟨a, b, c⟩ = (configParts a b c s).frame := rfl

theorem rangingFrame_eq_frame (fc src : Byte) (s : State) :
    rangingFrame s.seq (argDestShort s) src fc (rangingPayload fc s) = (rangingParts fc src s).frame := rfl

theorem fits_blinkParts (s : State) : (blinkParts s).Fits := by
  constructor <;> simp [blinkParts, alen]

theorem fits_bcastParts (s : State) : (bcastParts s).Fits := by
  constructor <;> simp [bcastParts, alen]

theorem fits_configParts (a b c : Byte) (s : State) : (configParts a b c s).Fits := by
  constructor <;> simp [configParts, alen]

theorem fits_rangingParts (fc src : Byte) (s : State) : (rangingParts fc src s).Fits where
  dm_ne := nofun
  sm_ne := nofun
  length_dst := length_le2 _
  length_src := length_le2 _
  length_pl_le := length_rangingPayload_le fc s
  length_pl := fun hfc => (length_rangingPayload fc s).trans (if_pos hfc)

/-- The short address of an id gives the id back (41_codec.md R136). -/
theorem srcId_eq_of_srcShort {m : Memory} {x : Byte} (h : srcShort m = shortOfId x) : srcId m = x := by
  rw [srcId, h, shortOfId]
  simp

/-! ## A build and a PARSE of its bytes -/

/-- `u` has role NONE, and its mailbox is the frame in the codec buffer of `t`. -/
structure Delivered (t u : State) : Prop where
  role : u.role = .none
  inlen : u.inlen = t.clen.zeroExtend 16
  bytes : ∀ k < t.clen.toNat, u.mem.read (0x100 + k) = t.mem.read (0x180 + k)

theorem mailboxFrame_of_delivered {f : List Byte} {s t u : State} (ht : HoldsFrame f s t) (hle : f.length ≤ 127)
    (hu : Delivered t u) : mailboxFrame u = f := by
  obtain ⟨hclen, hbytes, -⟩ := ht
  have hinlen : u.inlen.toNat = f.length := by
    rw [hu.inlen, ← hclen, BitVec.toNat_setWidth, Nat.mod_eq_of_lt (by omega)]
  refine List.ext_getElem (by simpa [mailboxFrame] using hinlen) fun k _ hk => ?_
  calc (mailboxFrame u)[k] = u.mem.read (0x100 + k) := by simp [mailboxFrame]
    _ = t.mem.read (0x180 + k) := hu.bytes k (hclen ▸ hk)
    _ = f.getD k 0 := hbytes k (by omega)
    _ = f[k] := List.getD_eq_getElem _ _ hk

/-- PARSE of the bytes a build stored copies the built frame into the codec buffer (41_codec.md R127). -/
theorem parse_of_built {i : Instr} {p : FrameParts} {opc : Byte} {f : List Byte} {s t u : State} (hf : f = p.frame)
    (hp : p.Fits) (hbuild : exec i s = .next (buildFrame opc f s)) (hexec : exec i s = .next t) (hu : Delivered t u) :
    ∃ v, exec .parse u = .next v ∧ v.role = .none ∧ v.cmdStatus = ⟨0x05, true, .none, 0⟩ ∧ v.clen = t.clen
      ∧ (∀ k < 128, v.mem.read (0x180 + k) = t.mem.read (0x180 + k)) ∧ p.HeldBy v := by
  subst hf
  cases hbuild.symm.trans hexec
  have hle := hp.length_frame_le
  have hbuilt := holdsFrame_buildFrame opc s hle
  have hmail := mailboxFrame_of_delivered hbuilt hle hu
  have hinlen : u.inlen.toNat ≤ 127 := by
    rwa [← hmail, mailboxFrame, List.length_map, List.length_range] at hle
  have hparse := exec_parse_accepted hu.role hinlen
  rw [hmail] at hparse
  obtain ⟨-, hsent, -⟩ := hbuilt
  obtain ⟨hclen, hbytes, -⟩ := holdsFrame_storeC p.frame u hle
  exact ⟨_, hparse, hu.role, rfl, rfl, fun k hk => (hbytes k hk).trans (hsent k hk).symm, hp, hclen, hbytes⟩

/-- BUILD_RANGING that is not refused in role NONE had one of the five steady-state codes. -/
theorem isRangingCode_of_built {fc src : Byte} {s t : State} (hrole : s.role = .none)
    (h : exec (.buildRanging fc src) s = .next t) (herr : t.cmdStatus.err = .none) : isRangingCode fc = true := by
  by_contra hfc
  rw [exec_buildRanging_badOperand hrole hfc] at h
  cases h
  cases herr

/-- Settles O57: by the build. Each leaves the frame of its parts, PARSE copies that frame, and the getters read the parts back. -/
theorem buildThenParse : Obligations.BuildThenParse := by
  intro i s t u hrole hexec herr hurole hinlen hbytes hbuild
  have hu : Delivered t u := ⟨hurole, hinlen, hbytes⟩
  rcases hbuild with rfl | rfl | ⟨a, b, c, rfl⟩ | ⟨fc, src, rfl⟩
  · obtain ⟨v, hparse, -, hstatus, hclen, hcopy, h⟩ :=
      parse_of_built (blinkFrame_eq_frame s) (fits_blinkParts s) (exec_buildBlink hrole) hexec hu
    exact ⟨v, hparse, hstatus, hclen, hcopy, h.wellFormed_eq, h.frameSeq_eq,
      fun _ => ⟨h.dstMode_eq, h.srcMode_eq, h.headerLen_eq, h.fcode_eq, h.dstExt_eq rfl rfl, h.srcExt_eq rfl rfl⟩,
      nofun, nofun, nofun⟩
  · obtain ⟨v, hparse, -, hstatus, hclen, hcopy, h⟩ :=
      parse_of_built (bcastFrame_eq_frame s) (fits_bcastParts s) (exec_buildBcast hrole) hexec hu
    exact ⟨v, hparse, hstatus, hclen, hcopy, h.wellFormed_eq, h.frameSeq_eq, nofun,
      fun _ => ⟨h.dstMode_eq, h.srcMode_eq, h.headerLen_eq, h.fcode_eq, h.dstShort_eq rfl rfl, h.srcExt_eq rfl rfl⟩,
      nofun, nofun⟩
  · obtain ⟨v, hparse, hvrole, hstatus, hclen, hcopy, h⟩ :=
      parse_of_built (configFrame_eq_frame a b c s) (fits_configParts a b c s) (exec_buildConfig hrole a b c) hexec hu
    refine ⟨v, hparse, hstatus, hclen, hcopy, h.wellFormed_eq, h.frameSeq_eq, nofun, nofun, ?_, nofun⟩
    rintro _ _ _ ⟨⟩
    exact ⟨h.dstMode_eq, h.srcMode_eq, h.headerLen_eq, h.fcode_eq, h.dstExt_eq rfl rfl, h.srcExt_eq rfl rfl,
      exec_parseConfig_some hvrole (h.parseCfg_eq rfl rfl)⟩
  · obtain ⟨v, hparse, -, hstatus, hclen, hcopy, h⟩ :=
      parse_of_built (rangingFrame_eq_frame fc src s) (fits_rangingParts fc src s)
        (exec_buildRanging hrole (isRangingCode_of_built hrole hexec herr) src) hexec hu
    have hsrc : srcShort v.mem = shortOfId src := h.srcShort_eq rfl rfl
    refine ⟨v, hparse, hstatus, hclen, hcopy, h.wellFormed_eq, h.frameSeq_eq, nofun, nofun, nofun, ?_⟩
    rintro _ _ ⟨⟩
    exact ⟨h.dstMode_eq, h.srcMode_eq, h.headerLen_eq, h.fcode_eq, h.dstShort_eq rfl rfl, hsrc,
      srcId_eq_of_srcShort hsrc, fun hfc => h.frameTs_eq (if_pos hfc)⟩

end Sys2Proof.Machine
end

section
/-! PROOFS. The registry commands (42_registry.md R152, R156 to R160): what each does outside and inside a coordinator round, said
once, and the stride ids that a sequence of registrations gives out (R153, R154, R161, R162). -/

namespace Sys2Proof.Machine

/-! ## The registry operations -/

/-- A new address gets a slot where one is free (42_registry.md R153). -/
theorem regAdd_of_new {x : ExtAddr} {s : State} (hroom : s.registry.length < s.params.cap)
    (hnew : ∀ p ∈ s.registry, p.addr ≠ x) :
    regAddResult x s = some (strideId s.session.initId (s.registry.length + 1))
      ∧ regAdd x s =
          { s with
            registry :=
              s.registry ++ [{ addr := x, id := strideId s.session.initId (s.registry.length + 1), dist := 0 }] } := by
  rcases regAdd_cases x s with ⟨-, -, hresult, hadd⟩ | ⟨hfull | ⟨p, hp, hx⟩, -, -⟩
  · exact ⟨hresult, hadd⟩
  · omega
  · exact absurd hx (hnew p hp)

/-- A full registry and a known address answer no id (42_registry.md R153). -/
theorem regAddResult_eq_none {x : ExtAddr} {s : State}
    (h : s.params.cap ≤ s.registry.length ∨ ∃ p ∈ s.registry, p.addr = x) : regAddResult x s = none := by
  rcases regAdd_cases x s with ⟨hroom, hnew, -, -⟩ | ⟨-, hresult, -⟩
  · rcases h with hfull | ⟨p, hp, hx⟩
    · omega
    · exact absurd hx (hnew p hp)
  · exact hresult

/-- A removal takes out the slot `findId` finds and moves the later entries down (42_registry.md R154). -/
theorem regRemove_of_findId {d : Byte} {s : State} {k : Nat} (h : findId d s = some k) :
    regRemove d s = { s with registry := s.registry.take k ++ s.registry.drop (k + 1) } := by
  rw [regRemove, h, ← List.eraseIdx_eq_take_drop_succ]

theorem lt_length_of_findId {d : Byte} {s : State} {k : Nat} (h : findId d s = some k) : k < s.registry.length := by
  obtain ⟨⟨p, hp, -⟩, -⟩ := (findId_eq_some_iff d s k).mp h
  exact (List.getElem?_eq_some_iff.mp hp).1

theorem length_regRemove_of_findId {d : Byte} {s : State} {k : Nat} (h : findId d s = some k) :
    (regRemove d s).registry.length + 1 = s.registry.length := by
  have hk := lt_length_of_findId h
  simp only [regRemove_of_findId h, List.length_append, List.length_take, List.length_drop]
  omega

/-! ## The commands -/

/-- The decoder's test of a command whose last two operand bytes are reserved (30_encoding.md R93). -/
theorem ifReservedZero_lastBytes (b c : Byte) (i : Instr) :
    ifReservedZero (b == 0 && c == 0) i = if b = 0 ∧ c = 0 then .instr i else .reservedField := by
  simp [ifReservedZero]

theorem unlessCoordBusy_eq_refuse {s : State} (h : s.role = .coord ∧ s.status.coordState ≠ .idle) (opc : Byte)
    (run : State → State) : unlessCoordBusy opc run s = .next (refuse opc .busy s) := by
  rw [unlessCoordBusy, if_pos (coordBusy_eq_true h)]

theorem unlessCoordBusy_eq_run {s : State} (h : ¬(s.role = .coord ∧ s.status.coordState ≠ .idle)) (opc : Byte)
    (run : State → State) : unlessCoordBusy opc run s = .next (run s) := by
  rw [unlessCoordBusy, coordBusy_eq_false h]
  rfl

/-- The four registry mutations, opcodes 0x11 to 0x14, are refused with BUSY in a coordinator round (42_registry.md R152). -/
theorem exec_regMutation_busy {i : Instr} {s : State} (hi : 0x11 ≤ i.opcode ∧ i.opcode ≤ 0x14)
    (h : s.role = .coord ∧ s.status.coordState ≠ .idle) : exec i s = .next (refuse i.opcode .busy s) := by
  cases i with
  | regAdd => rw [exec, execRegAdd, unlessCoordBusy_eq_refuse h]
  | regRemove id => rw [exec, execRegRemove, unlessCoordBusy_eq_refuse h]
  | regUpdateId id => rw [exec, execRegUpdateId, unlessCoordBusy_eq_refuse h]
  | regSetDist id => rw [exec, execRegSetDist, unlessCoordBusy_eq_refuse h]
  | _ => simp [Instr.opcode] at hi

theorem exec_regContains_some {s : State} {k : Nat} {p : Peer} (h : findAddr s.args.xA s = some k)
    (hp : s.registry[k]? = some p) : exec .regContains s = .next (finish 0x10 true p.id s) := by
  have hslot : regSlot s k = p := by rw [regSlot, List.getD_eq_getElem?_getD, hp, Option.getD_some]
  rw [exec, execRegContains, h, ← hslot]
  rfl

theorem exec_regContains_none {s : State} (h : findAddr s.args.xA s = none) :
    exec .regContains s = .next (finish 0x10 false 0 s) := by
  rw [exec, execRegContains, h]
  rfl

section
variable {s : State} (hidle : ¬(s.role = .coord ∧ s.status.coordState ≠ .idle))
include hidle

theorem exec_regAdd_some {d : Byte} (h : regAddResult s.args.xA s = some d) :
    exec .regAdd s = .next (finish 0x11 true d (regAdd s.args.xA s)) := by
  rw [exec, execRegAdd, unlessCoordBusy_eq_run hidle, h]
  rfl

theorem exec_regAdd_none (h : regAddResult s.args.xA s = none) :
    exec .regAdd s = .next (finish 0x11 false 0 s) := by
  rw [exec, execRegAdd, unlessCoordBusy_eq_run hidle, h]
  rfl

theorem exec_regRemove_some {id : Byte} {k : Nat} (h : findId id s = some k) :
    exec (.regRemove id) s
      = .next (finish 0x12 true 0 { s with registry := s.registry.take k ++ s.registry.drop (k + 1) }) := by
  rw [exec, execRegRemove, unlessCoordBusy_eq_run hidle, regRemove_of_findId h, h]
  rfl

theorem exec_regRemove_none {id : Byte} (h : findId id s = none) :
    exec (.regRemove id) s = .next (finish 0x12 false 0 s) := by
  rw [exec, execRegRemove, unlessCoordBusy_eq_run hidle, regRemove, h]
  rfl

theorem exec_regUpdateId_some {id : Byte} {k : Nat} {p : Peer} (h : findAddr s.args.xA s = some k)
    (hp : s.registry[k]? = some p) :
    exec (.regUpdateId id) s
      = .next (finish 0x13 true 0 { s with registry := s.registry.set k { p with id := id } }) := by
  rw [exec, execRegUpdateId, unlessCoordBusy_eq_run hidle, h, ← modify_eq_set (f := fun p => { p with id := id }) hp]
  rfl

theorem exec_regUpdateId_none {id : Byte} (h : findAddr s.args.xA s = none) :
    exec (.regUpdateId id) s = .next (finish 0x13 false 0 s) := by
  rw [exec, execRegUpdateId, unlessCoordBusy_eq_run hidle, h]
  rfl

theorem exec_regSetDist_some {id : Byte} {k : Nat} {p : Peer} (h : findId id s = some k)
    (hp : s.registry[k]? = some p) :
    exec (.regSetDist id) s
      = .next (finish 0x14 true 0 { s with registry := s.registry.set k { p with dist := s.args.f32 } }) := by
  rw [exec, execRegSetDist, unlessCoordBusy_eq_run hidle, regSetDist, h,
    ← modify_eq_set (f := fun p => { p with dist := s.args.f32 }) hp]
  rfl

theorem exec_regSetDist_none {id : Byte} (h : findId id s = none) :
    exec (.regSetDist id) s = .next (finish 0x14 false 0 s) := by
  rw [exec, execRegSetDist, unlessCoordBusy_eq_run hidle, regSetDist, h]
  rfl

end

/-! ## Registrations from an empty registry (42_registry.md R161) -/

/-- The entries that registrations of `xs` in order leave: slot `k` has the stride id at position `k + 1`. -/
def strideEntries (init : Byte) (xs : List ExtAddr) : List Peer :=
  xs.mapIdx fun k x => { addr := x, id := strideId init (k + 1), dist := 0 }

@[simp] theorem length_strideEntries (init : Byte) (xs : List ExtAddr) : (strideEntries init xs).length = xs.length :=
  List.length_mapIdx

theorem strideEntries_append_singleton (init : Byte) (xs : List ExtAddr) (x : ExtAddr) :
    strideEntries init (xs ++ [x])
      = strideEntries init xs ++ [{ addr := x, id := strideId init (xs.length + 1), dist := 0 }] :=
  List.mapIdx_concat

/-- The registered addresses are those of the list. -/
theorem addr_mem_of_mem_strideEntries {init : Byte} {xs : List ExtAddr} {p : Peer} (h : p ∈ strideEntries init xs) :
    p.addr ∈ xs := by
  obtain ⟨k, hk, rfl⟩ := List.mem_mapIdx.mp h
  exact List.getElem_mem hk

theorem strideEntries_getElem? {init : Byte} {xs : List ExtAddr} {k : Nat} {p : Peer}
    (h : (strideEntries init xs)[k]? = some p) : k < xs.length ∧ p.id = strideId init (k + 1) := by
  rw [strideEntries, List.getElem?_mapIdx, Option.map_eq_some_iff] at h
  obtain ⟨x, hx, rfl⟩ := h
  exact ⟨(List.getElem?_eq_some_iff.mp hx).1, rfl⟩

/-- Registering distinct addresses that fit fills the slots in order and changes nothing else: each is new to those before it. -/
theorem foldl_regAdd_eq {s : State} (hempty : s.registry = []) (xs : List ExtAddr) (hnodup : xs.Nodup)
    (hfit : xs.length ≤ s.params.cap) :
    xs.foldl (fun v x => regAdd x v) s = { s with registry := strideEntries s.session.initId xs } := by
  induction xs using List.reverseRecOn with
  | nil => rw [List.foldl_nil, strideEntries, List.mapIdx_nil, ← hempty]
  | append_singleton xs x ih =>
    obtain ⟨hxs, -, hdisj⟩ := List.nodup_append.mp hnodup
    rw [List.length_append, List.length_singleton] at hfit
    rw [List.foldl_append, ih hxs (by omega), List.foldl_cons, List.foldl_nil, strideEntries_append_singleton]
    have hnew : ∀ p ∈ strideEntries s.session.initId xs, p.addr ≠ x := fun p hp =>
      hdisj _ (addr_mem_of_mem_strideEntries hp) x (List.mem_singleton_self x)
    rw [(regAdd_of_new (by simpa using hfit) hnew).2, length_strideEntries]

/-- A stride id that does not wrap is its value as a number (42_registry.md R161). -/
theorem toNat_strideId {init : Byte} {k : Nat} (h : init.toNat + 4 * k < 256) :
    (strideId init k).toNat = init.toNat + 4 * k := by
  rw [strideId, BitVec.toNat_add, BitVec.toNat_ofNat]
  omega

/-! ## The statements -/

/-- Settles O15: by whether the address is found. -/
theorem regContainsResult : Obligations.RegContainsResult := by
  refine ⟨fun a b c => (decode_packWord 0x10 a b c).trans (ifReservedZero_bytes a b c _), fun s => ⟨?_, ?_⟩⟩
  · exact fun hnone => exec_regContains_none ((findAddr_eq_none_iff _ s).mpr hnone)
  · exact fun k p hp haddr hleast => exec_regContains_some (findAddr_eq_some hp haddr hleast) hp

/-- Settles O16: by the round, then by what `regAdd` answers. The prefix keeps it apart from the model's `regAddResult`. -/
theorem Registry.regAddResult : Obligations.RegAddResult := by
  refine ⟨fun a b c => (decode_packWord 0x11 a b c).trans (ifReservedZero_bytes a b c _), fun s => ?_⟩
  intro d
  refine ⟨?_, ?_, ?_⟩
  · exact exec_regMutation_busy (by decide)
  · exact fun hidle hfails => exec_regAdd_none hidle (regAddResult_eq_none hfails)
  · intro hidle hroom hnew
    have hd : strideId s.session.initId (s.registry.length + 1) = d := by rw [strideId, Nat.mul_comm]
    obtain ⟨hresult, hadd⟩ := regAdd_of_new hroom hnew
    rw [exec_regAdd_some hidle hresult, hadd, hd]
    rfl

/-- Settles O17: by the round, then by whether the id is found. -/
theorem regRemoveResult : Obligations.RegRemoveResult := by
  refine fun id b c => ⟨(decode_packWord 0x12 id b c).trans (ifReservedZero_lastBytes b c _), fun s => ⟨?_, ?_, ?_⟩⟩
  · exact exec_regMutation_busy (by simp [Instr.opcode])
  · exact fun hidle hnone => exec_regRemove_none hidle ((findId_eq_none_iff id s).mpr hnone)
  · exact fun k p hidle hp hid hleast => exec_regRemove_some hidle (findId_eq_some hp hid hleast)

/-- Settles O18: by the round, then by whether the address is found. -/
theorem regUpdateIdResult : Obligations.RegUpdateIdResult := by
  refine fun id b c => ⟨(decode_packWord 0x13 id b c).trans (ifReservedZero_lastBytes b c _), fun s => ⟨?_, ?_, ?_⟩⟩
  · exact exec_regMutation_busy (by simp [Instr.opcode])
  · exact fun hidle hnone => exec_regUpdateId_none hidle ((findAddr_eq_none_iff _ s).mpr hnone)
  · exact fun k p hidle hp haddr hleast => exec_regUpdateId_some hidle (findAddr_eq_some hp haddr hleast) hp

/-- Settles O19: by the round, then by whether the id is found. -/
theorem regSetDistResult : Obligations.RegSetDistResult := by
  refine fun id b c => ⟨(decode_packWord 0x14 id b c).trans (ifReservedZero_lastBytes b c _), fun s => ⟨?_, ?_, ?_⟩⟩
  · exact exec_regMutation_busy (by simp [Instr.opcode])
  · exact fun hidle hnone => exec_regSetDist_none hidle ((findId_eq_none_iff id s).mpr hnone)
  · exact fun k p hidle hp hid hleast => exec_regSetDist_some hidle (findId_eq_some hp hid hleast) hp

/-- Settles O58: the registrations by induction on their list from its end; after a removal the next new address takes the position
that the shorter registry leaves free. -/
theorem registryAssignsStrideIds : Obligations.RegistryAssignsStrideIds := by
  refine ⟨fun s xs hempty hnodup hfit => ?_, fun s d k x hfind hfit hnew => ?_⟩
  · rw [foldl_regAdd_eq hempty xs hnodup hfit]
    refine ⟨rfl, fun hnowrap k p hp => ?_⟩
    obtain ⟨hk, hid⟩ := strideEntries_getElem? hp
    rw [hid, toNat_strideId (by omega)]
  · have hlen := length_regRemove_of_findId hfind
    have hroom : (regRemove d s).registry.length < (regRemove d s).params.cap := by rw [regRemove_params]; omega
    have hregistry : (regRemove d s).registry = s.registry.take k ++ s.registry.drop (k + 1) := by
      rw [regRemove_of_findId hfind]
    refine ⟨hregistry, hlen, ?_⟩
    rw [(regAdd_of_new hroom hnew).2, hlen, hregistry, regRemove_session]
    rfl

end Sys2Proof.Machine
end

section
/-! PROOFS. The session and transmission commands (43_session.md R172, R174 to R176): what each answers under each of its guards,
and the target order `deriveSession` gives a coordinator and a responder (R170, R178). -/

namespace Sys2Proof.Machine

/-! ## The session's derivation (43_session.md R170, R171) -/

/-- A derivation sets the session and resets the round (43_session.md R170, R171). -/
theorem deriveSession_eq (own init n : Byte) (s : State) :
    deriveSession own init n s =
      { s with
        session :=
          { ownId := own, initId := init, nodeCount := n, waitPos := BitVec.ofNat 8 ((own - init).toNat / 4)
            targets := (targetOrder own init n).take s.params.cap }
        round := Round.cleared s.params.cap
        status := { s.status with respPhase := .poll } } := by
  rw [deriveSession, div_four_eq]
  rfl

theorem totalLegal_iff (n : Byte) (s : State) : totalLegal n s = true ↔ n ≠ 0 ∧ n.toNat ≤ s.params.maxNodes := by
  rw [totalLegal, decide_eq_true_iff, Nat.one_le_iff_ne_zero]
  exact and_congr_left' (not_congr (BitVec.toNat_eq (y := 0)).symm)

/-! ## SESSION_SET (43_session.md R172) -/

theorem exec_sessionSet_busy {s : State} (h : s.role = .coord ∧ s.status.coordState ≠ .idle) (own init total : Byte) :
    exec (.sessionSet own init total) s = .next (refuse 0x20 .busy s) := by
  rw [exec, execSessionSet, unlessCoordBusy_eq_refuse h]
  rfl

theorem exec_sessionSet_badOperand {s : State} (hidle : ¬(s.role = .coord ∧ s.status.coordState ≠ .idle)) {total : Byte}
    (h : ¬totalLegal total s = true) (own init : Byte) :
    exec (.sessionSet own init total) s = .next (refuse 0x20 .badOperand s) := by
  rw [exec, execSessionSet, unlessCoordBusy_eq_run hidle, if_neg h]
  rfl

theorem exec_sessionSet_ok {s : State} (hidle : ¬(s.role = .coord ∧ s.status.coordState ≠ .idle)) {total : Byte}
    (h : totalLegal total s = true) (own init : Byte) :
    exec (.sessionSet own init total) s = .next (finish 0x20 true 0 (deriveSession own init total s)) := by
  rw [exec, execSessionSet, unlessCoordBusy_eq_run hidle, if_pos h]
  rfl

/-! ## SEND_CONFIG (43_session.md R176) -/

theorem exec_sendConfig_wrongRole {s : State} (h : s.role ≠ .coord) (slot : Byte) :
    exec (.sendConfig slot) s = .next (refuse 0x21 .wrongRole s) := by
  rw [exec, execSendConfig, if_pos h]
  rfl

theorem exec_sendConfig_busy {s : State} (hrole : s.role = .coord)
    (h : s.status.coordState ≠ .idle ∨ s.status.txPending = true) (slot : Byte) :
    exec (.sendConfig slot) s = .next (refuse 0x21 .busy s) := by
  rw [exec, execSendConfig, if_neg (not_not.mpr hrole), if_pos h]
  rfl

section
variable {s : State} (hrole : s.role = .coord) (hidle : s.status.coordState = .idle) (htx : s.status.txPending = false)
include hrole hidle htx

theorem exec_sendConfig_badOperand {slot : Byte} (h : s.registry.length ≤ slot.toNat) :
    exec (.sendConfig slot) s = .next (refuse 0x21 .badOperand s) := by
  rw [exec, execSendConfig, if_neg (not_not.mpr hrole), if_neg (by simp [hidle, htx]), regCount, if_pos h]
  rfl

theorem exec_sendConfig_ok {slot : Byte} (h : slot.toNat < s.registry.length) :
    exec (.sendConfig slot) s = .next (finish 0x21 true (assignedId slot s) (sendConfig slot s)) := by
  rw [exec, execSendConfig, if_neg (not_not.mpr hrole), if_neg (by simp [hidle, htx]), regCount,
    if_neg (Nat.not_le.mpr h)]
  rfl

end

/-- The config frame of the peer `p` of slot `slot` (43_session.md R176). -/
def slotConfigFrame (slot : Byte) (p : Peer) (s : State) : List Byte :=
  configFrame s.seq p.addr s.eui { init := s.session.initId, assigned := assignedId slot s, total := configTotal s }

/-- A transmission of a frame just stored sends that frame (41_codec.md R122, 43_session.md R173). -/
theorem txRequest_storeC {f : List Byte} (hf : f.length ≤ frameMax) (kind : TxKind) (mode : TxMode) (rxAfter : Bool)
    (tmo : Word) (s : State) :
    txRequest kind (storeC f s).clen.toNat mode rxAfter tmo (storeC f s) =
      { storeC f s with
        out := s.out ++ [.tx f mode rxAfter tmo]
        status := { s.status with txPending := true, txKind := kind } } := by
  have hsent : cbufBytes (storeC f s).mem (storeC f s).clen.toNat = f := heldFrame_storeC f s hf
  rw [txRequest, hsent]
  rfl

/-- An accepted SEND_CONFIG in terms of the slot's peer: its id is set, its frame is stored and sent, and the session is derived
(43_session.md R176). -/
theorem sendConfig_eq {slot : Byte} {p : Peer} {s : State} (hp : s.registry[slot.toNat]? = some p) :
    sendConfig slot s =
      deriveSession s.session.ownId s.session.initId (configTotal s)
        { storeC (slotConfigFrame slot p s)
            { s with registry := s.registry.set slot.toNat { p with id := assignedId slot s } } with
          out := s.out ++ [.tx (slotConfigFrame slot p s) .imm false 0]
          status := { s.status with txPending := true, txKind := .config } } := by
  have hset : regSetId slot.toNat (assignedId slot s) s =
      { s with registry := s.registry.set slot.toNat { p with id := assignedId slot s } } := by
    rw [regSetId, modify_eq_set hp]
  have haddr : (regSlot (regSetId slot.toNat (assignedId slot s) s) slot.toNat).addr = p.addr := by
    obtain ⟨hslot, -⟩ := List.getElem?_eq_some_iff.mp hp
    simp [hset, regSlot, hslot]
  unfold sendConfig
  dsimp only
  rw [haddr, hset, txRequest_storeC (by simp [frameMax])]
  rfl

/-! ## TX_SEND and RX_ENABLE (43_session.md R174, R175) -/

theorem txFlagsLegal_iff (flags : Byte) : txFlagsLegal flags = true ↔ flags &&& 0xFC = 0 := beq_iff_eq

theorem rxFlagsLegal_iff (flags : Byte) : rxFlagsLegal flags = true ↔ flags &&& 0xFE = 0 := beq_iff_eq

section
variable {flags : Byte} {s : State}

theorem exec_txSend_wrongRole (hflags : txFlagsLegal flags = true) (hrole : s.role ≠ .none) :
    exec (.txSend flags) s = .next (refuse 0x22 .wrongRole s) := by
  rw [exec, execTxSend, if_pos hflags, inRoleNone_eq_refuse hrole]
  rfl

theorem exec_txSend_busy (hflags : txFlagsLegal flags = true) (hrole : s.role = .none) (htx : s.status.txPending = true) :
    exec (.txSend flags) s = .next (refuse 0x22 .busy s) := by
  rw [exec, execTxSend, if_pos hflags, inRoleNone_eq_run hrole, if_pos htx]
  rfl

theorem exec_txSend_badOperand (hflags : txFlagsLegal flags = true) (hrole : s.role = .none)
    (htx : s.status.txPending = false) (hclen : s.clen = 0) :
    exec (.txSend flags) s = .next (refuse 0x22 .badOperand s) := by
  rw [exec, execTxSend, if_pos hflags, inRoleNone_eq_run hrole, if_neg (by simp [htx]), if_pos hclen]
  rfl

theorem exec_txSend_ok (hflags : txFlagsLegal flags = true) (hrole : s.role = .none) (htx : s.status.txPending = false)
    (hclen : s.clen ≠ 0) :
    exec (.txSend flags) s = .next
      (finish 0x22 true 0
        (txRequest .host s.clen.toNat (txSendMode flags s) (flagRxa flags) (timeoutIf (flagRxa flags) s) s)) := by
  rw [exec, execTxSend, if_pos hflags, inRoleNone_eq_run hrole, if_neg (by simp [htx]), if_neg hclen]
  rfl

theorem exec_rxEnable_wrongRole (hflags : rxFlagsLegal flags = true) (hrole : s.role ≠ .none) :
    exec (.rxEnable flags) s = .next (refuse 0x23 .wrongRole s) := by
  rw [exec, execRxEnable, if_pos hflags, inRoleNone_eq_refuse hrole]
  rfl

theorem exec_rxEnable_busy (hflags : rxFlagsLegal flags = true) (hrole : s.role = .none) (htx : s.status.txPending = true) :
    exec (.rxEnable flags) s = .next (refuse 0x23 .busy s) := by
  rw [exec, execRxEnable, if_pos hflags, inRoleNone_eq_run hrole, if_pos htx]
  rfl

theorem exec_rxEnable_ok (hflags : rxFlagsLegal flags = true) (hrole : s.role = .none) (htx : s.status.txPending = false) :
    exec (.rxEnable flags) s = .next (finish 0x23 true 0 (rxOn (timeoutIf (flagTmo flags) s) s)) := by
  rw [exec, execRxEnable, if_pos hflags, inRoleNone_eq_run hrole, if_neg (by simp [htx])]
  rfl

end

/-! ## The target order (43_session.md R178) -/

/-- The stride ids of a session of `n` nodes, in slot order (43_session.md R170). -/
def strideIds (init : Byte) (n : Nat) : List Byte := (List.range (n - 1)).map fun k => strideId init (k + 1)

@[simp] theorem length_strideIds (init : Byte) (n : Nat) : (strideIds init n).length = n - 1 := by simp [strideIds]

@[simp] theorem strideId_zero (init : Byte) : strideId init 0 = init := BitVec.add_zero init

/-- Below 64 nodes no two stride positions share an id (43_session.md R178). -/
theorem strideId_inj {init : Byte} {j k : Nat} (hj : j < 64) (hk : k < 64) : strideId init j = strideId init k ↔ j = k := by
  refine ⟨fun h => ?_, fun h => h ▸ rfl⟩
  have h4 : (4 * j) % 256 = (4 * k) % 256 := by
    simpa [strideId, BitVec.toNat_eq] using h
  omega

theorem nodup_strideIds (init : Byte) {n : Nat} (hn : n ≤ 64) : (strideIds init n).Nodup := by
  refine List.Nodup.map_on (fun j hj k hk h => ?_) List.nodup_range
  rw [List.mem_range] at hj hk
  have := (strideId_inj (by omega) (by omega)).mp h
  omega

theorem getElem_strideIds (init : Byte) {n k : Nat} (hk : k < (strideIds init n).length) :
    (strideIds init n)[k] = strideId init (k + 1) := by
  simp [strideIds]

/-- The stride ids without that of wait position `w` are those of the other positions (43_session.md R178). -/
theorem filter_strideIds_ne (init : Byte) {n w : Nat} (hn : n ≤ 64) (hpos : 1 ≤ w) (hw : w ≤ n - 1) :
    (strideIds init n).filter (fun p => decide (p ≠ strideId init w)) = (strideIds init n).eraseIdx (w - 1) := by
  have hlt : w - 1 < (strideIds init n).length := by rw [length_strideIds]; omega
  have hown : strideId init w = (strideIds init n)[w - 1] := by rw [getElem_strideIds, Nat.sub_add_cancel hpos]
  have hnodup := nodup_strideIds init hn
  rw [hown, ← hnodup.erase_getElem _ hlt, hnodup.erase_eq_filter]
  congr 1
  funext p
  exact decide_not

/-- No stride id above the initiator's is the initiator's own. -/
theorem filter_strideIds_init (init : Byte) {n : Nat} (hn : n ≤ 64) :
    (strideIds init n).filter (fun p => decide (p ≠ init)) = strideIds init n := by
  rw [List.filter_eq_self]
  intro p hp
  obtain ⟨k, hk, rfl⟩ := List.mem_map.mp hp
  rw [List.mem_range] at hk
  have hne : strideId init (k + 1) ≠ strideId init 0 := by
    rw [Ne, strideId_inj (by omega) (by omega)]
    omega
  simpa using hne

theorem targetOrder_eq (own init n : Byte) :
    targetOrder own init n
      = (if own = init then [] else [init]) ++ (strideIds init n.toNat).filter (fun p => decide (p ≠ own)) := rfl

/-- A coordinator's targets are the stride ids in order (43_session.md R178). -/
theorem targetOrder_coord (init : Byte) {n : Nat} (hn : n ≤ 64) :
    targetOrder init init (BitVec.ofNat 8 n) = strideIds init n := by
  rw [targetOrder_eq, if_pos rfl, List.nil_append, BitVec.toNat_ofNat, Nat.mod_eq_of_lt (by omega),
    filter_strideIds_init init hn]

/-- A responder's targets are the initiator and the stride ids without its own (43_session.md R178). -/
theorem targetOrder_resp (init : Byte) {n w : Nat} (hn : n ≤ 64) (hpos : 1 ≤ w) (hw : w ≤ n - 1) :
    targetOrder (strideId init w) init (BitVec.ofNat 8 n) = init :: (strideIds init n).eraseIdx (w - 1) := by
  have hne : strideId init w ≠ init := by
    have h := strideId_inj (init := init) (j := w) (k := 0) (by omega) (by omega)
    rw [strideId_zero] at h
    rw [Ne, h]
    omega
  rw [targetOrder_eq, if_neg hne, BitVec.toNat_ofNat, Nat.mod_eq_of_lt (by omega), filter_strideIds_ne init hn hpos hw,
    List.singleton_append]

/-- The wait position of a stride id is its position (43_session.md R170). -/
theorem waitPos_strideId (init : Byte) {w : Nat} (hw : w < 64) : (strideId init w - init) / 4 = BitVec.ofNat 8 w := by
  have hsub : strideId init w - init = BitVec.ofNat 8 (4 * w) := by rw [strideId, add_sub_cancel_left]
  rw [hsub, div_four_eq, BitVec.toNat_ofNat, Nat.mod_eq_of_lt (by omega), Nat.mul_div_cancel_left w (by omega)]

/-! ## The statements -/

/-- Settles O20: by the round, then by the total. -/
theorem sessionSetResult : Obligations.SessionSetResult := by
  refine fun own init total => ⟨decode_packWord 0x20 own init total, fun s => ⟨?_, ?_, ?_⟩⟩
  · exact fun hbusy => exec_sessionSet_busy hbusy own init total
  · intro hidle hbad
    refine exec_sessionSet_badOperand hidle (fun hlegal => ?_) own init
    obtain ⟨hne, hle⟩ := (totalLegal_iff total s).mp hlegal
    exact hbad.elim hne (Nat.not_lt.mpr hle)
  · intro hidle hne hle
    rw [exec_sessionSet_ok hidle ((totalLegal_iff total s).mpr ⟨hne, hle⟩), deriveSession_eq]
    rfl

/-- Settles O21: by the role, the round and the slot; the effect is that on the slot's peer. -/
theorem sendConfigResult : Obligations.SendConfigResult := by
  refine fun slot b c => ⟨(decode_packWord 0x21 slot b c).trans (ifReservedZero_lastBytes b c _), fun s => ?_⟩
  refine ⟨?_, ?_, ?_, ?_⟩
  · exact fun hrole => exec_sendConfig_wrongRole hrole slot
  · exact fun hrole hbusy => exec_sendConfig_busy hrole hbusy slot
  · exact fun hrole hidle htx hslot => exec_sendConfig_badOperand hrole hidle htx hslot
  · intro p hrole hidle htx hp d n f
    obtain ⟨hslot, -⟩ := List.getElem?_eq_some_iff.mp hp
    have hd : assignedId slot s = d := by rw [assignedId, strideId, Nat.mul_comm]
    have hframe : slotConfigFrame slot p s = f := by rw [slotConfigFrame, configFrame_eq, hd]; rfl
    have hlen : f.length = 27 := by rw [← hframe, slotConfigFrame, length_configFrame]
    have hclen : BitVec.ofNat 8 f.length = 27 := by rw [hlen]; rfl
    refine ⟨_, exec_sendConfig_ok hrole hidle htx hslot, ?_, ?_⟩
    · rw [sendConfig_eq hp, deriveSession_eq, hframe, hd, ← hclen]
      rfl
    · rw [sendConfig_eq hp, hframe]
      exact holdsFrame_of_eq (holdsFrame_storeC f s (by omega)) rfl rfl

/-- Settles O22: by the flags, the role, the outstanding transmission and the length. -/
theorem txSendResult : Obligations.TxSendResult := by
  refine fun flags b c => ⟨(decode_packWord 0x22 flags b c).trans ?_, fun s => ⟨?_, ?_, ?_, ?_⟩⟩
  · simp [ifReservedZero, txFlagsLegal_iff, and_assoc]
  all_goals
    intro hflags hrole
    replace hflags := (txFlagsLegal_iff flags).mpr hflags
  · exact exec_txSend_wrongRole hflags hrole
  · exact exec_txSend_busy hflags hrole
  · exact exec_txSend_badOperand hflags hrole
  · exact exec_txSend_ok hflags hrole

/-- Settles O23: by the flags, the role and the outstanding transmission. -/
theorem rxEnableResult : Obligations.RxEnableResult := by
  refine fun flags b c => ⟨(decode_packWord 0x23 flags b c).trans ?_, fun s => ⟨?_, ?_, ?_⟩⟩
  · simp [ifReservedZero, rxFlagsLegal_iff, and_assoc]
  all_goals
    intro hflags hrole
    replace hflags := (rxFlagsLegal_iff flags).mpr hflags
  · exact exec_rxEnable_wrongRole hflags hrole
  · exact exec_rxEnable_busy hflags hrole
  · exact exec_rxEnable_ok hflags hrole

/-- Settles O59: the stride ids of up to 63 nodes are distinct and all fit, so removing the node's own removes one position. -/
theorem sessionTargetOrder : Obligations.SessionTargetOrder := by
  intro init n w s hpos hmax hlegal ids
  obtain ⟨-, hmax63, -, -⟩ := hlegal
  have hcap : s.params.cap = s.params.maxNodes - 1 := rfl
  have hlen : (strideIds init n).length = n - 1 := length_strideIds init n
  refine ⟨fun _ => ?_, fun hw1 hwn => ?_⟩
  · rw [deriveSession_session, targetOrder_coord init (by omega), List.take_of_length_le (by omega), BitVec.sub_self]
    rfl
  · have herase : ((strideIds init n).eraseIdx (w - 1)).length + 1 = n - 1 := by
      rw [List.length_eraseIdx_of_lt (by omega)]
      omega
    change (deriveSession (strideId init w) init (BitVec.ofNat 8 n) s).session = _
    rw [deriveSession_session, targetOrder_resp init (by omega) hw1 hwn, waitPos_strideId init (by omega),
      List.take_of_length_le (by rw [List.length_cons]; omega)]
    rfl

end Sys2Proof.Machine
end

section
/-! PROOFS. Which actions change the session and `SEQ` (10_state.md R31, 43_session.md R180): the commands, the host's writes, the
coordinator, which changes neither, and the responder's message. -/

namespace Sys2Proof.Machine

/-- From `s` to `t` neither the session nor `SEQ` changed. -/
def KeepsSession (s t : State) : Prop := t.session = s.session ∧ t.seq = s.seq

theorem keepsSession_refl (s : State) : KeepsSession s s := ⟨rfl, rfl⟩

theorem KeepsSession.trans {s t u : State} (h₁ : KeepsSession s t) (h₂ : KeepsSession t u) : KeepsSession s u :=
  ⟨h₂.1.trans h₁.1, h₂.2.trans h₁.2⟩

/-! ## Commands -/

theorem seq_of_commandEffect {s u : State} (h : CommandEffect s u) : u.seq = s.seq := by
  cases h with
  | sendConfig => simp [Machine.sendConfig]
  | _ => simp

/-- No command changes `SEQ` (10_state.md R31). -/
theorem seq_of_exec {i : Instr} {s t : State} (h : exec i s = .next t) : t.seq = s.seq := by
  obtain ⟨u, c, heffect, rfl⟩ := commanded_of_exec h
  exact (seq_of_commandEffect heffect :)

theorem session_of_inRoleNone {opc : Byte} {run : State → State} {s t : State} (h : inRoleNone opc run s = .next t)
    (hrun : (run s).session = s.session) : t.session = s.session := by
  rcases inRoleNone_cases opc run s with ⟨-, e⟩ | ⟨-, e⟩ <;> rw [e] at h <;> cases h
  · exact hrun
  · rfl

theorem session_of_unlessCoordBusy {opc : Byte} {run : State → State} {s t : State}
    (h : unlessCoordBusy opc run s = .next t) (hrun : (run s).session = s.session) : t.session = s.session := by
  rcases unlessCoordBusy_cases opc run s with ⟨-, e⟩ | ⟨-, e⟩ <;> rw [e] at h <;> cases h
  · exact hrun
  · rfl

/-- The codec, registry and radio commands keep the session; SESSION_SET and SEND_CONFIG change it only where they are not
refused (43_session.md R180). -/
theorem session_of_exec {i : Instr} {s t : State} (h : exec i s = .next t) :
    t.session = s.session ∨ ((i.opcode = 0x20 ∨ i.opcode = 0x21) ∧ t.cmdStatus.err = .none) := by
  cases i with
  | buildBlink => exact .inl (session_of_inRoleNone h rfl)
  | buildBcast => exact .inl (session_of_inRoleNone h rfl)
  | buildConfig init assigned total => exact .inl (session_of_inRoleNone h rfl)
  | buildRanging fc src =>
    rw [exec, execBuildRanging] at h
    exact .inl (session_of_inRoleNone h (by split <;> rfl))
  | parse =>
    rw [exec, execParse] at h
    exact .inl (session_of_inRoleNone h (by split <;> rfl))
  | parseConfig =>
    rw [exec, execParseConfig] at h
    exact .inl (session_of_inRoleNone h (by split <;> rfl))
  | regContains =>
    cases h
    exact .inl (by split <;> rfl)
  | regAdd =>
    rw [exec, execRegAdd] at h
    exact .inl (session_of_unlessCoordBusy h (by split <;> simp))
  | regRemove id =>
    rw [exec, execRegRemove] at h
    exact .inl (session_of_unlessCoordBusy h (by simp))
  | regUpdateId id =>
    rw [exec, execRegUpdateId] at h
    exact .inl (session_of_unlessCoordBusy h (by split <;> simp))
  | regSetDist id =>
    rw [exec, execRegSetDist] at h
    exact .inl (session_of_unlessCoordBusy h (by simp))
  | sessionSet own init total =>
    by_cases hbusy : s.role = .coord ∧ s.status.coordState ≠ .idle
    · rw [exec_sessionSet_busy hbusy] at h
      cases h
      exact .inl rfl
    by_cases hlegal : totalLegal total s = true
    · rw [exec_sessionSet_ok hbusy hlegal] at h
      cases h
      exact .inr ⟨.inl rfl, rfl⟩
    · rw [exec_sessionSet_badOperand hbusy hlegal] at h
      cases h
      exact .inl rfl
  | sendConfig slot =>
    rw [exec, execSendConfig] at h
    cases h
    split
    · exact .inl rfl
    split
    · exact .inl rfl
    split
    · exact .inl rfl
    · exact .inr ⟨.inr rfl, rfl⟩
  | txSend flags =>
    rw [exec, execTxSend] at h
    split at h
    · refine .inl (session_of_inRoleNone h ?_)
      split
      · rfl
      · split <;> rfl
    · cases h
      exact .inl rfl
  | rxEnable flags =>
    rw [exec, execRxEnable] at h
    split at h
    · exact .inl (session_of_inRoleNone h (by split <;> rfl))
    · cases h
      exact .inl rfl

theorem opcode_of_decode {w : Word} {i : Instr} (h : decode w = .instr i) : i.opcode = fieldOpc w := by
  obtain ⟨r, hrow, -, rfl⟩ := decode_eq_instr_cases h
  exact opcode_command hrow

/-! ## Register and window writes -/

theorem keepsSession_writeCtrl (v : Word) (s : State) : KeepsSession s (writeCtrl v s) := by
  unfold writeCtrl changeCtrl
  dsimp only
  split
  · exact keepsSession_refl s
  · split <;> split <;> exact ⟨rfl, rfl⟩

/-- `SESSION` and the `TARGETS` window are read-only, and `SEQ` is written by its own register alone (20_memory.md R62, R69). -/
theorem keepsSession_writeReg {r : HostReg} (hr : r ≠ .seq) (v : Word) (s : State) : KeepsSession s (writeReg r v s) := by
  cases r with
  | seq => exact absurd rfl hr
  | ctrl => exact keepsSession_writeCtrl v s
  | inlen =>
    unfold writeReg
    dsimp only
    split <;> exact ⟨rfl, rfl⟩
  | _ => exact ⟨rfl, rfl⟩

theorem keepsSession_writeLoc {l : Loc} (hl : l ≠ .reg .seq) (v : Word) (s : State) : KeepsSession s (writeLoc l v s) := by
  cases l with
  | reg r => exact keepsSession_writeReg (fun hr => hl (congrArg Loc.reg hr)) v s
  | inbuf off =>
    unfold writeLoc
    dsimp only
    split <;> exact ⟨rfl, rfl⟩
  | _ => exact keepsSession_refl s

/-! ## The coordinator -/

theorem keepsSession_take (s : State) : KeepsSession s (take s) := ⟨take_session s, take_seq s⟩

theorem keepsSession_abort (c : AbortCause) (p : Option Byte) (s : State) : KeepsSession s (abort c p s) :=
  ⟨abort_session c p s, abort_seq c p s⟩

theorem keepsSession_regAdd (x : ExtAddr) (s : State) : KeepsSession s (regAdd x s) := ⟨regAdd_session x s, regAdd_seq x s⟩

theorem keepsSession_sendRange (s : State) : KeepsSession s (sendRange s) := by simp [KeepsSession, sendRange]

theorem keepsSession_acceptAck (s : State) : KeepsSession s (acceptAck s) := by
  have hstore : KeepsSession s (storeAck s) := ⟨rfl, rfl⟩
  rw [acceptAck_eq]
  split
  · exact hstore.trans (keepsSession_sendRange _)
  · exact hstore

theorem keepsSession_commitRound (s : State) : KeepsSession s (commitRound s) := by
  obtain ⟨heq, -⟩ := foldl_regSetDist_spec (targetAt s) (targetDist s) (roundIndices s) s
  unfold commitRound
  dsimp only at heq ⊢
  rw [heq]
  exact ⟨rfl, rfl⟩

theorem keepsSession_acceptFinal (s : State) : KeepsSession s (acceptFinal s) := by
  have hstore : KeepsSession s (storeFinal s) := ⟨rfl, rfl⟩
  rw [acceptFinal_eq, computeRound]
  split
  · split
    · exact hstore.trans (keepsSession_commitRound _)
    · exact hstore.trans (keepsSession_abort _ _ _)
  · exact ⟨rfl, rfl⟩

theorem keepsSession_awaitMessage {e : FuncCode} {accept : State → State} (haccept : ∀ u, KeepsSession u (accept u))
    (s : State) : KeepsSession s (awaitMessage e accept s) := by
  have ht := keepsSession_take s
  rcases awaitMessage_cases e accept s with e | e | e | e | ⟨-, -, e⟩ <;> rw [e]
  · exact ht
  · exact (ht.trans (keepsSession_regAdd _ _)).trans (keepsSession_abort _ _ _)
  · exact ht.trans (keepsSession_abort _ _ _)
  · exact ht.trans (keepsSession_abort _ _ _)
  · exact ht.trans (haccept _)

theorem keepsSession_awaitError (s : State) : KeepsSession s (awaitError s) := by
  unfold awaitError KeepsSession
  dsimp only
  split <;> simp

theorem keepsSession_awaitStep {e : FuncCode} {accept : State → State} (haccept : ∀ u, KeepsSession u (accept u))
    {s t : State} (h : awaitStep e accept s = some t) : KeepsSession s t := by
  obtain ⟨-, ⟨-, rfl⟩ | ⟨-, -, rfl⟩⟩ := awaitStep_cases h
  · exact keepsSession_awaitMessage haccept s
  · exact keepsSession_awaitError s

theorem keepsSession_idleStep {s t : State} (h : idleStep s = some t) : KeepsSession s t := by
  obtain ⟨-, ⟨-, rfl⟩ | ⟨-, -, rfl⟩ | ⟨-, -, -, -, rfl⟩⟩ := idleStep_cases h
  · unfold drainMessage
    dsimp only
    split
    · exact (keepsSession_take s).trans (keepsSession_regAdd _ _)
    · exact keepsSession_take s
  · exact ⟨rfl, rfl⟩
  · exact ⟨rfl, rfl⟩

theorem keepsSession_coordStep {s t : State} (h : coordStep s = some t) : KeepsSession s t := by
  rcases coordStep_cases s with ⟨-, e⟩ | ⟨-, e⟩ | ⟨-, e⟩ | ⟨-, e⟩ <;> rw [e] at h
  · cases h
    exact ⟨rfl, rfl⟩
  · exact keepsSession_idleStep h
  · exact keepsSession_awaitStep keepsSession_acceptAck h
  · exact keepsSession_awaitStep keepsSession_acceptFinal h

/-! ## The responder -/

/-- What a message of the responder may do to the session: nothing, take that of a config, which is the frame in `CBUF`, or clear
`INIT_ID`; and to `SEQ`: nothing, or one increment as the round completes (43_session.md R180, 45_responder.md R239, R244). -/
structure RespUpdate (s t : State) : Prop where
  session : t.session = s.session ∨ fcode t.mem = 0x03 ∨ t.session = { s.session with initId := 0 }
  seq : t.seq = s.seq ∨ (t.seq = s.seq + 1 ∧ t.status.roundDone = true)

theorem KeepsSession.respUpdate {s t : State} (h : KeepsSession s t) : RespUpdate s t := ⟨.inl h.1, .inl h.2⟩

theorem KeepsSession.respUpdate_trans {s t u : State} (h : KeepsSession s t) (hu : RespUpdate t u) : RespUpdate s u := by
  obtain ⟨hsession, hseq⟩ := hu
  rw [h.1] at hsession
  rw [h.2] at hseq
  exact ⟨hsession, hseq⟩

/-- The end of a phase keeps the session; `SEQ` moves on where the round completes (45_responder.md R240, R244). -/
theorem respUpdate_advance (s : State) : RespUpdate s (advance s) := by
  unfold advance endPhase
  dsimp only
  split
  · split
    · exact ⟨.inl rfl, .inl rfl⟩
    · exact ⟨.inl rfl, .inr ⟨rfl, rfl⟩⟩
  · exact ⟨.inl rfl, .inl rfl⟩

theorem keepsSession_reply (s : State) : KeepsSession s (reply s) := by simp [KeepsSession, reply]

theorem respUpdate_arrival (s : State) : RespUpdate s (arrival s) := by
  have hstamp : KeepsSession s (stampPhase s) := by
    rw [stampPhase_eq]
    exact ⟨rfl, rfl⟩
  rcases arrival_cases s with e | e <;> rw [e]
  · exact (hstamp.trans (keepsSession_reply _)).respUpdate_trans (respUpdate_advance _)
  · obtain ⟨hsession, hseq⟩ := hstamp.respUpdate_trans (respUpdate_advance (stampPhase s))
    exact ⟨hsession, hseq⟩

theorem mismatch_session (s : State) : (mismatch s).session = { s.session with initId := 0 } := by simp [mismatch]

theorem mismatch_seq (s : State) : (mismatch s).seq = s.seq := by simp [mismatch]

theorem fcode_of_acceptedConfig {s : State} {c : ConfigTriple} (h : acceptedConfig s = some c) : fcode s.mem = 0x03 := by
  unfold acceptedConfig at h
  split at h
  · obtain ⟨hparse, -⟩ := Option.filter_eq_some_iff.mp h
    by_contra hcode
    rw [parseCfg_of_not_covered fun hcovered => hcode hcovered.1] at hparse
    nomatch hparse
  · nomatch h

theorem respUpdate_onConfig (s : State) : RespUpdate s (onConfig s) := by
  unfold onConfig
  split
  next c hc =>
    have hcode := fcode_of_acceptedConfig hc
    dsimp only
    split <;> exact ⟨.inr (.inl hcode), .inl rfl⟩
  next => exact ⟨.inl rfl, .inl rfl⟩

theorem respUpdate_onReset (s : State) : RespUpdate s (onReset s) := by
  unfold onReset
  dsimp only
  split
  · exact KeepsSession.respUpdate (keepsSession_abort .respResetFrame none s)
  · exact ⟨.inl rfl, .inl rfl⟩

theorem respUpdate_onStranger (s : State) : RespUpdate s (onStranger s) := by
  unfold onStranger
  split
  · exact ⟨.inr (.inr (mismatch_session s)), .inl (mismatch_seq s)⟩
  · exact ⟨.inl rfl, .inl rfl⟩

theorem respUpdate_onInitiatorPoll (s : State) : RespUpdate s (onInitiatorPoll s) := by
  unfold onInitiatorPoll
  split
  · exact (keepsSession_abort _ _ s).respUpdate_trans (respUpdate_arrival _)
  · exact respUpdate_arrival s

theorem respUpdate_onInitiatorRange (s : State) : RespUpdate s (onInitiatorRange s) := by
  unfold onInitiatorRange
  split
  · exact respUpdate_arrival s
  split
  · exact KeepsSession.respUpdate (keepsSession_abort .respUnexpectedCode none s)
  · exact ⟨.inl rfl, .inl rfl⟩

theorem respUpdate_onReplyFrame (fc : FuncCode) (s : State) : RespUpdate s (onReplyFrame fc s) := by
  unfold onReplyFrame
  split
  · exact ⟨.inl rfl, .inl rfl⟩
  split
  · exact ⟨.inr (.inr (mismatch_session s)), .inl (mismatch_seq s)⟩
  split
  · exact KeepsSession.respUpdate (keepsSession_abort .respUnexpectedCode none s)
  · exact respUpdate_arrival s

theorem respUpdate_onFrame (s : State) : RespUpdate s (onFrame s) := by
  rcases onFrame_cases s with e | e | e | e | ⟨-, e | e⟩ | e | e <;> rw [e]
  · exact ⟨.inl rfl, .inl rfl⟩
  · exact respUpdate_onConfig s
  · exact respUpdate_onReset s
  · exact respUpdate_onStranger s
  · exact respUpdate_onInitiatorPoll s
  · exact respUpdate_onInitiatorRange s
  · exact respUpdate_onReplyFrame .ack s
  · exact respUpdate_onReplyFrame .final s

theorem respUpdate_respMessage (s : State) : RespUpdate s (respMessage s) := by
  rcases respMessage_eq s with e | e <;> rw [e]
  · exact KeepsSession.respUpdate (keepsSession_take s)
  · exact (keepsSession_take s).respUpdate_trans (respUpdate_onFrame _)

/-! ## Every action -/

/-- The action is the host's write of `v` at block offset `off`, by the block's own interface or by the bus (20_memory.md R79). -/
def HostWrites (a : Action) (s : State) (off : Nat) (v : Word) : Prop :=
  a = .host (.write 4 off v) ∨ a = .bus (.write 4 (s.params.blockBase + off) v)

/-- What an action does to the session and `SEQ`: nothing, or one of the changes 43_session.md R180 and 10_state.md R31 list. -/
inductive SessionEffect (s t : State) : Action → Prop where
  | keep {a : Action} (h : KeepsSession s t) : SessionEffect s t a
  | command {a : Action} {w : Word} (ha : HostWrites a s 0x00C w) (hopc : fieldOpc w = 0x20 ∨ fieldOpc w = 0x21)
      (herr : t.cmdStatus.err = .none) (hseq : t.seq = s.seq) : SessionEffect s t a
  | seqWrite {a : Action} {v : Word} (ha : HostWrites a s 0x048 v) (hsession : t.session = s.session) : SessionEffect s t a
  | message (hrole : s.role = .resp) (hmsg : s.status.msgPending = true) (h : RespUpdate s t) : SessionEffect s t .sequencer

theorem sessionEffect_of_runCommand {a : Action} {w : Word} {s t : State} (ha : HostWrites a s 0x00C w)
    (h : runCommand w s = .next t) : SessionEffect s t a := by
  rcases runCommand_cases w s with ⟨i, hi, e⟩ | ⟨-, e⟩ | ⟨-, e⟩ <;> rw [e] at h
  · rcases session_of_exec h with hkeep | ⟨hopc, herr⟩
    · exact .keep ⟨hkeep, seq_of_exec h⟩
    · rw [opcode_of_decode hi] at hopc
      exact .command ha hopc herr (seq_of_exec h)
  · cases h
    exact .keep ⟨rfl, rfl⟩
  · cases h
    exact .keep ⟨rfl, rfl⟩

theorem sessionEffect_of_hostWrite {a : Action} {size off : Nat} {v : Word} {s t : State}
    (ha : size = 4 → HostWrites a s off v) (h : hostWrite size off v s = .next t) : SessionEffect s t a := by
  rcases hostWrite_cases size off v s with ⟨-, e⟩ | ⟨hlegal, rfl, e⟩ | ⟨hlegal, -, e⟩ <;> rw [e] at h
  · cases h
    exact .keep ⟨rfl, rfl⟩
  · exact sessionEffect_of_runCommand (ha ((accessLegal_iff _ _).mp hlegal).1) h
  · cases h
    by_cases hloc : locate off = .reg .seq
    · have hoff : off = 0x048 := eq_offset_of_locate hloc
      subst hoff
      exact .seqWrite (ha ((accessLegal_iff _ _).mp hlegal).1) rfl
    · exact .keep (keepsSession_writeLoc hloc v s)

theorem keepsSession_hostRead (size off : Nat) (s : State) : KeepsSession s (hostRead size off s) := by
  unfold hostRead
  split <;> exact ⟨rfl, rfl⟩

theorem sessionEffect_of_hostAccess {x : HostAccess} {s t : State} (h : hostAccess x s = .next t) :
    SessionEffect s t (.host x) := by
  cases x with
  | read size off => cases h; exact .keep (keepsSession_hostRead size off s)
  | write size off v => exact sessionEffect_of_hostWrite (fun h4 => .inl (by rw [h4])) h

theorem sessionEffect_of_busAccess {x : HostAccess} {s t : State} (h : busAccess x s = .next t) :
    SessionEffect s t (.bus x) := by
  cases x with
  | read size addr =>
    rw [busAccess] at h
    split at h
    · cases h; exact .keep (keepsSession_hostRead _ _ s)
    · cases h; exact .keep (keepsSession_refl s)
  | write size addr v =>
    rw [busAccess] at h
    split at h
    next hin =>
      obtain ⟨hbase, -⟩ : s.params.blockBase ≤ addr ∧ addr < s.params.blockBase + 0x1000 := of_decide_eq_true hin
      refine sessionEffect_of_hostWrite (fun h4 => .inr ?_) h
      rw [h4, Nat.add_sub_cancel' hbase]
    next => cases h; exact .keep (keepsSession_refl s)

/-- A radio event writes stamps, flags and the mailbox only (60_exceptions.md R270 to R272). -/
theorem keepsSession_captureEvent (e : RadioEvent) (s : State) : KeepsSession s (captureEvent e s) := by
  have herr : ∀ c, KeepsSession s (onRxErr c s) := fun c => by
    unfold onRxErr
    dsimp only
    split <;> exact ⟨rfl, rfl⟩
  cases e with
  | rxGood bytes len ts =>
    show KeepsSession s (onRxGood bytes len ts s)
    unfold onRxGood
    dsimp only
    split <;> split <;> exact ⟨rfl, rfl⟩
  | rxError => exact herr .rxError
  | rxTimeout => exact herr .rxTimeout
  | txDone ts =>
    show KeepsSession s (onTxDone ts s)
    unfold onTxDone
    split <;> exact ⟨rfl, rfl⟩

theorem sessionEffect_of_sequencerStep {s t : State} (h : sequencerStep s = some t) : SessionEffect s t .sequencer := by
  obtain ⟨-, ⟨-, hcoord⟩ | ⟨hrole, hresp⟩⟩ := sequencerStep_cases h
  · exact .keep (keepsSession_coordStep hcoord)
  · obtain ⟨-, ⟨hmsg, rfl⟩ | ⟨-, -, rfl⟩⟩ := respStep_cases hresp
    · exact .message hrole hmsg (respUpdate_respMessage s)
    · exact .keep ⟨rfl, rfl⟩

theorem keepsSession_backoffStep {s t : State} (h : backoffStep s = some t) : KeepsSession s t := by
  unfold backoffStep at h
  split at h
  · cases h
    exact ⟨rfl, rfl⟩
  · nomatch h

/-- Every action but the block reset has one of the effects above. -/
theorem act_sessionEffect {a : Action} {s t : State} (h : act a s = .next t) (hne : a ≠ .blockReset) :
    SessionEffect s t a := by
  have hagent : ∀ (a : Action) (o : Option State), (∀ u, o = some u → SessionEffect s u a) → SessionEffect s (o.getD s) a :=
    fun a o ho => by
      cases o with
      | none => exact .keep (keepsSession_refl s)
      | some u => exact ho u rfl
  cases a with
  | host x => exact sessionEffect_of_hostAccess h
  | bus x => exact sessionEffect_of_busAccess h
  | radio e => cases h; exact .keep (keepsSession_captureEvent e s)
  | sequencer => cases h; exact hagent _ _ fun _ => sessionEffect_of_sequencerStep
  | backoffTimer => cases h; exact hagent _ _ fun _ hu => .keep (keepsSession_backoffStep hu)
  | blockReset => exact absurd rfl hne

/-- Settles O53: by the effect of the action. -/
theorem sessionAndSequenceLifetime : Obligations.SessionAndSequenceLifetime := by
  intro a s t h hne
  cases act_sessionEffect h hne with
  | keep hkeep => exact ⟨fun hs => absurd hkeep.1 hs, fun hq => absurd hkeep.2 hq⟩
  | command ha hopc herr hseq => exact ⟨fun _ => .inl ⟨_, ha, hopc, herr⟩, fun hq => absurd hseq hq⟩
  | seqWrite ha hsession => exact ⟨fun hs => absurd hsession hs, fun _ => .inl ⟨_, ha⟩⟩
  | message hrole hmsg hupdate =>
    obtain ⟨hsession, hseq⟩ := hupdate
    refine ⟨fun hs => .inr ⟨rfl, hrole, hmsg, hsession.resolve_left hs⟩, fun hq => ?_⟩
    obtain ⟨hincrement, hdone⟩ := hseq.resolve_left hq
    exact .inr ⟨rfl, hrole, hincrement, hdone⟩

end Sys2Proof.Machine
end

section
/-! PROOFS. When the sequencer has a step, the write of `CTRL`, and the coordinator's steps in IDLE (44_coordinator.md R190 to R195,
R206, R220). -/

namespace Sys2Proof.Machine

/-! ## When the sequencer has a step -/

/-- A message or an error waits for the sequencer. -/
abbrev EventPending (s : State) : Prop := s.status.msgPending = true ∨ s.status.errPending = true

theorem awaitStep_ne_none_iff (e : FuncCode) (accept : State → State) (s : State) :
    awaitStep e accept s ≠ none ↔ s.status.txPending = false ∧ EventPending s := by
  unfold awaitStep EventPending
  cases s.status.txPending <;> cases s.status.msgPending <;> cases s.status.errPending <;> simp

theorem idleStep_ne_none_iff (s : State) :
    idleStep s ≠ none ↔ s.status.txPending = false ∧ (EventPending s ∨ (s.status.backoff = false ∧ s.round.pos = 0)) := by
  unfold idleStep EventPending
  cases s.status.txPending <;> cases s.status.msgPending <;> cases s.status.errPending <;> simp

theorem respStep_ne_none_iff (s : State) : respStep s ≠ none ↔ s.status.txPending = false ∧ EventPending s := by
  unfold respStep EventPending
  cases s.status.txPending <;> cases s.status.msgPending <;> cases s.status.errPending <;> simp

theorem coordStep_ne_none_iff (s : State) :
    coordStep s ≠ none ↔ s.status.coordState = .complete
      ∨ (s.status.txPending = false
        ∧ (EventPending s ∨ (s.status.coordState = .idle ∧ s.status.backoff = false ∧ s.round.pos = 0))) := by
  rcases coordStep_cases s with ⟨hc, e⟩ | ⟨hc, e⟩ | ⟨hc, e⟩ | ⟨hc, e⟩ <;> rw [e, hc]
  · simp
  · simp [idleStep_ne_none_iff]
  · simp [awaitStep_ne_none_iff]
  · simp [awaitStep_ne_none_iff]

theorem sequencerStep_ne_none_iff (s : State) :
    sequencerStep s ≠ none ↔
      s.enable = true ∧ ((s.role = .coord ∧ coordStep s ≠ none) ∨ (s.role = .resp ∧ respStep s ≠ none)) := by
  unfold sequencerStep
  cases s.enable <;> cases s.role <;> simp

/-- Settles O36: by the guards of each role's step. -/
theorem holdWhileTransmitting : Obligations.HoldWhileTransmitting := by
  intro s pending steps
  have hiff : sequencerStep s ≠ none ↔ steps := by
    rw [sequencerStep_ne_none_iff, coordStep_ne_none_iff, respStep_ne_none_iff,
      and_or_left (a := s.role = .coord), or_assoc]
  refine ⟨hiff, fun hsteps => ?_, fun henable hrole hcomplete => ?_⟩
  · have hnone : sequencerStep s = none := not_not.mp (mt hiff.mp hsteps)
    rw [act, hnone]
    rfl
  · rw [sequencer_coord henable hrole, coordStep, hcomplete]
    rfl

/-! ## The write of `CTRL` (44_coordinator.md R220) -/

theorem roleOf_eq : ∀ b : BitVec 2, roleOf b = if b = 1 then .coord else if b = 2 then .resp else .none := by decide

theorem roundInProgress_iff (s : State) :
    roundInProgress s = true ↔
      (s.role = .coord ∧ (s.status.coordState = .awaitAcks ∨ s.status.coordState = .awaitFinals))
        ∨ (s.role = .resp ∧ (s.status.respPhase = .range ∨ 0 < s.round.pos.toNat)) := by
  unfold roundInProgress
  cases s.role <;> simp [respActive_iff]

/-- The state a change of `ENABLE` or `ROLE` leaves. -/
theorem changeCtrl_eq (e : Bool) (r : Role) (s : State) :
    changeCtrl e r s =
      { s with
        enable := e
        role := r
        round := Round.cleared s.params.cap
        status :=
          { s.status with
            coordState := .idle, respPhase := .poll, backoff := false
            roundFail := s.status.roundFail || roundInProgress s }
        lastAbort :=
          if roundInProgress s then { cause := .disabled, evictId := 0, evictV := false } else s.lastAbort
        out := if e ∧ r = .resp then s.out ++ [.rxon 0] else s.out } := by
  unfold changeCtrl
  by_cases hrearm : e = true ∧ r = .resp
  · rw [if_pos hrearm, if_pos hrearm]
    cases roundInProgress s
    · rw [Bool.or_false]; rfl
    · rw [Bool.or_true]; rfl
  · rw [if_neg hrearm, if_neg hrearm]
    cases roundInProgress s
    · rw [Bool.or_false]; rfl
    · rw [Bool.or_true]; rfl

/-- Settles O32: by the state a change of the fields leaves. -/
theorem ctrlWriteRestartsTheStateMachines : Obligations.CtrlWriteRestartsTheStateMachines := by
  intro v s e r inRound
  have hwrite : act (.host (.write 4 0x000 v)) s = .next (if e = s.enable ∧ r = s.role then s else changeCtrl e r s) := by
    have hrole : roleOf (v.extractLsb' 1 2) = r := roleOf_eq _
    show _ = Host.Outcome.next (if v.getLsbD 0 = s.enable ∧ r = s.role then s else changeCtrl (v.getLsbD 0) r s)
    rw [← hrole]
    exact act_write_offset (r := .ctrl) (by decide) v s
  have hround : roundInProgress s = inRound := by
    rw [Bool.eq_iff_iff, roundInProgress_iff, decide_eq_true_iff]
  refine ⟨fun hsame => by rw [hwrite, if_pos hsame], fun hchange => ?_⟩
  rw [hwrite, if_neg hchange, changeCtrl_eq, hround]
  rfl

/-! ## The start of a round (44_coordinator.md R192) -/

/-- The twelve bytes of the coordinator's POLL and RANGE. -/
theorem coordFrame_eq (fc : FuncCode) (s : State) :
    coordFrame fc s =
      [0x41, 0x88, s.seq, 0xCA, 0xDE, 0xFF, 0xFF, s.session.ownId, 0x00, funcCodeByte fc, 0x00, 0x00] := by
  rw [coordFrame, rangingFrame_eq]
  rfl

theorem startRound_eq (s : State) :
    startRound s =
      { storeC (coordFrame .poll s) s with
        round := Round.cleared s.params.cap
        status :=
          { s.status with coordState := .awaitAcks, respPhase := .poll, txPending := true, txKind := .poll }
        out := s.out ++ [.tx (coordFrame .poll s) .imm true s.timing.rxTimeout] } := by
  unfold startRound
  dsimp only
  rw [txRequest_storeC (length_coordFrame_le _ _)]
  rfl

/-- Settles O34: by the state the start of a round leaves. -/
theorem coordinatorStartsARound : Obligations.CoordinatorStartsARound := by
  intro s henable hrole hidle hbackoff htx hmsg herr hpos f
  have hframe : coordFrame .poll s = f := coordFrame_eq .poll s
  have hstep : idleStep s = some (startRound s) := by simp [idleStep, htx, hmsg, herr, hbackoff, hpos]
  refine ⟨startRound s, ?_, ?_, ?_⟩
  · rw [sequencer_coord henable hrole, coordStep, hidle]
    exact congrArg (fun o => Host.Outcome.next (o.getD s)) hstep
  · rw [startRound_eq, hframe]
    rfl
  · rw [startRound_eq, hframe]
    exact holdsFrame_of_eq (holdsFrame_storeC f s (show 12 ≤ 127 by decide)) rfl rfl

/-! ## A message or an error in IDLE (44_coordinator.md R193, R194) -/

/-- A registration after `take`, in terms of the state before it: one more entry, unless the address is known or there is no
room. -/
theorem regAdd_take_eq (x : ExtAddr) (s : State) :
    regAdd x (take s) =
      { take s with
        registry :=
          if s.params.cap ≤ s.registry.length ∨ ∃ p ∈ s.registry, p.addr = x then s.registry
          else s.registry ++
            [{ addr := x, id := s.session.initId + BitVec.ofNat 8 ((s.registry.length + 1) * 4), dist := 0 }] } := by
  have hid : strideId s.session.initId (s.registry.length + 1)
      = s.session.initId + BitVec.ofNat 8 ((s.registry.length + 1) * 4) := by
    rw [strideId, Nat.mul_comm]
  rcases regAdd_cases x (take s) with ⟨hroom, hnew, -, hadd⟩ | ⟨hknown, -, hadd⟩
  · have hnot : ¬(s.params.cap ≤ s.registry.length ∨ ∃ p ∈ s.registry, p.addr = x) := by
      simpa using And.intro hroom hnew
    rw [hadd, if_neg hnot]
    simp only [take_registry, take_session, hid]
  · rw [hadd, if_pos (by simpa using hknown)]
    rw [← take_registry]

theorem drainMessage_of_blink {s : State} (h : TakesWellFormed s) (hcode : fcode (take s).mem = 0x01)
    (hmode : srcMode (take s).mem = .extended) : drainMessage s = regAdd (srcExt (take s).mem) (take s) := by
  have hlen := (inlenAccepted_iff s).mpr h.1
  simp [drainMessage, hlen, h.2, isBlink, funcCodeByte, hcode, hmode]

theorem drainMessage_of_not_blink {s : State}
    (h : ¬(TakesWellFormed s ∧ fcode (take s).mem = 0x01 ∧ srcMode (take s).mem = .extended)) :
    drainMessage s = take s := by
  unfold drainMessage
  dsimp only
  rw [if_neg]
  simpa [inlenAccepted_iff, isBlink, funcCodeByte, and_assoc] using h

theorem sequencer_of_coordTakes_idle {s : State} (h : CoordTakes .idle s) :
    act .sequencer s = .next (drainMessage s) := by
  obtain ⟨henable, hrole, hidle, htx, hmsg⟩ := h
  rw [sequencer_coord henable hrole]
  simp [coordStep, hidle, idleStep, htx, hmsg]

/-- Settles O35: by the registration after `take`. -/
theorem idleDrainsTheMailbox : Obligations.IdleDrainsTheMailbox := by
  refine ⟨?_, fun s henable hrole hidle htx hmsg herr => ?_⟩
  · intro s htakes u blink known
    rw [sequencer_of_coordTakes_idle htakes]
    refine ⟨fun h => congrArg _ ?_, fun ⟨hwell, hcode, hmode⟩ hnew => congrArg _ ?_⟩
    · by_cases hblink : blink
      · obtain ⟨hwell, hcode, hmode⟩ := id hblink
        have hknown : known := h.resolve_left (not_not.mpr hblink)
        rw [drainMessage_of_blink hwell hcode hmode]
        rw [regAdd_take_eq, if_pos hknown, ← take_registry]
      · exact drainMessage_of_not_blink hblink
    · rw [drainMessage_of_blink hwell hcode hmode, regAdd_take_eq, if_neg hnew]
  · rw [sequencer_coord henable hrole]
    simp [coordStep, hidle, idleStep, htx, hmsg, herr]

end Sys2Proof.Machine
end

section
/-! PROOFS. The coordinator's steps while it awaits an answer (44_coordinator.md R196 to R204, R217): what a taken frame comes to, the
two accepted frames, the commit of a round, and the eviction after a timeout or an error. -/

namespace Sys2Proof.Machine

/-! ## `take()` (44_coordinator.md R196) -/

theorem take_of_accepted {s : State} (h : s.inlen.toNat ≤ 127) :
    take s = storeC (mailboxFrame s) { s with status.msgPending := false } := by
  rcases take_cases s with ⟨-, e⟩ | ⟨hno, -⟩
  · exact e
  · exact absurd ((inlenAccepted_iff s).mpr h) (by simp [hno])

theorem take_of_oversized {s : State} (h : 127 < s.inlen.toNat) : take s = { s with status.msgPending := false } := by
  rcases take_cases s with ⟨hyes, -⟩ | ⟨-, e⟩
  · exact absurd ((inlenAccepted_iff s).mp hyes) (by omega)
  · exact e

/-- Taking a frame writes `CBUF` alone. -/
theorem read_take_outside (s : State) {a : Nat} (ha : a < 0x180 ∨ 0x200 ≤ a) : (take s).mem.read a = s.mem.read a := by
  rcases take_cases s with ⟨-, e⟩ | ⟨-, e⟩ <;> rw [e]
  exact read_storeC_outside _ _ (by unfold cbufBase bufSize; omega)

/-- A frame stored after `take` is all that differs from before it. -/
theorem holdsFrame_storeC_take {f : List Byte} (hf : f.length ≤ 127) {s t : State} (ht : t.mem = (take s).mem) :
    HoldsFrame f s (storeC f t) := by
  obtain ⟨hlen, hbytes, houtside⟩ := holdsFrame_storeC f t hf
  exact ⟨hlen, hbytes, fun a ha => by rw [houtside a ha, ht, read_take_outside s ha]⟩

/-- A window armed after a part of the step that asked the radio for nothing. -/
theorem armWindow_of_eq {s t : State} (hout : t.out = s.out) (htiming : t.timing = s.timing) :
    armWindow t = { t with out := s.out ++ [.rxon s.timing.rxTimeout] } := by
  simp only [armWindow, rxOn, emit, hout, htiming]

/-! ## The frames that end in a discard or an abort (44_coordinator.md R196 to R199) -/

theorem discarded_take_iff (s : State) :
    discarded s (take s) = true ↔
      ¬TakesWellFormed s ∨ (fcode (take s).mem = 0x01 ∧ srcMode (take s).mem ≠ .extended) := by
  rw [TakesWellFormed, not_and_or, ← inlenAccepted_iff]
  simp [discarded, funcCodeByte, or_assoc]

section
variable {e : FuncCode} {accept : State → State} {s : State}

theorem awaitMessage_of_discarded (h : discarded s (take s) = true) :
    awaitMessage e accept s = { take s with out := s.out ++ [.rxon s.timing.rxTimeout] } := by
  have harm : awaitMessage e accept s = armWindow (take s) := if_pos h
  rw [harm, armWindow_of_eq (take_out s) (take_timing s)]

theorem awaitMessage_of_blink (hwell : TakesWellFormed s) (hcode : fcode (take s).mem = 0x01)
    (hmode : srcMode (take s).mem = .extended) :
    awaitMessage e accept s = abort .blinkReceived none (regAdd (srcExt (take s).mem) (take s)) := by
  have hkept := not_discarded hwell fun _ => hmode
  unfold awaitMessage
  dsimp only
  rw [if_neg (by simp [hkept]), if_pos (show fcode (take s).mem = funcCodeByte .blink from hcode)]

theorem awaitMessage_of_unexpected (hwell : TakesWellFormed s) (hblink : fcode (take s).mem ≠ 0x01)
    (hcode : fcode (take s).mem ≠ funcCodeByte e) :
    awaitMessage e accept s = abort .unexpectedCode none (take s) := by
  have hkept := not_discarded hwell fun h => absurd h hblink
  unfold awaitMessage
  dsimp only
  rw [if_neg (by simp [hkept]), if_neg (show ¬fcode (take s).mem = funcCodeByte .blink from hblink), if_pos hcode]

theorem awaitMessage_of_wrongSource (hwell : TakesWellFormed s) (hblink : fcode (take s).mem ≠ 0x01)
    (hcode : fcode (take s).mem = funcCodeByte e)
    (hsource : s.session.targets[s.round.pos.toNat]? ≠ some (srcId (take s).mem)) :
    awaitMessage e accept s = abort .sourceMismatch none (take s) := by
  have hkept := not_discarded hwell fun h => absurd h hblink
  have hturn : turnTarget (take s) ≠ some (srcId (take s).mem) := by
    rwa [turnTarget_eq, take_session, take_round]
  unfold awaitMessage
  dsimp only
  rw [if_neg (by simp [hkept]), if_neg (show ¬fcode (take s).mem = funcCodeByte .blink from hblink),
    if_neg (not_not.mpr hcode), if_pos hturn]

end

/-- While awaiting, the step takes the message against the code of the awaited answer (44_coordinator.md R196). -/
theorem sequencer_awaits {s : State} (h : AwaitTakes s) :
    s.role = .coord ∧ ∃ e accept, act .sequencer s = .next (awaitMessage e accept s)
      ∧ funcCodeByte e = (if s.status.coordState = .awaitAcks then 0x05 else 0x07) := by
  refine ⟨h.elim (·.2.1) (·.2.1), ?_⟩
  rw [sequencer_of_awaitTakes s h]
  split
  · exact ⟨.ack, acceptAck, rfl, rfl⟩
  · exact ⟨.final, acceptFinal, rfl, rfl⟩

/-- Settles O37: by the two outcomes of `take` and the test of a discard. -/
theorem awaitDiscardsAFrame : Obligations.AwaitDiscardsAFrame := by
  refine ⟨wellFormed_iff, fun s => ⟨take_of_oversized, fun hlen => ?_⟩, fun s htakes hdrop => ?_⟩
  · have hmail : (mailboxFrame s).length ≤ 127 := by simpa [mailboxFrame] using hlen
    rw [take_of_accepted hlen]
    exact ⟨rfl, holdsFrame_storeC _ _ hmail⟩
  · obtain ⟨-, e, accept, hact, -⟩ := sequencer_awaits htakes
    rw [hact, awaitMessage_of_discarded ((discarded_take_iff s).mpr hdrop)]

/-- Settles O38: by the branch of the message that each frame takes. -/
theorem awaitAbortsTheRound : Obligations.AwaitAbortsTheRound := by
  intro s htakes hwell u x known
  obtain ⟨hrole, e, accept, hact, hexpected⟩ := sequencer_awaits htakes
  have hx : funcCodeByte e = x := hexpected
  have habort : ∀ c, abort c none u = coordAborted c u := fun c => abort_eq_coordAborted c u (by rw [take_role, hrole])
  rw [hact]
  refine ⟨fun hcode hmode => ?_, fun hblink hcode => ?_, fun hcode hsource => ?_⟩
  · rw [awaitMessage_of_blink hwell hcode hmode, abort_eq_coordAborted _ _ (by simp [hrole]), regAdd_take_eq]
  · rw [awaitMessage_of_unexpected hwell hblink (hx ▸ hcode), habort]
  · have hblink : fcode u.mem ≠ 0x01 := by
      rw [hcode]
      unfold x
      split <;> decide
    rw [awaitMessage_of_wrongSource hwell hblink (hcode.trans hx.symm) hsource, habort]

/-! ## The accepted ACK (44_coordinator.md R200, R201) -/

theorem atLastPos_iff (s : State) :
    atLastPos s = true ↔ s.round.pos.toNat + 1 = s.session.nodeCount.toNat := decide_eq_true_iff

theorem sendRange_eq (s : State) :
    sendRange s =
      { storeC (coordFrame .range s) s with
        round := { s.round with pos := 0 }
        status := { s.status with coordState := .awaitFinals, txPending := true, txKind := .range }
        out := s.out ++ [.tx (coordFrame .range s) (.dly (s.stamps.lastRx + s.timing.turnaround.zeroExtend 40)) true
          s.timing.rxTimeout] } := by
  unfold sendRange
  dsimp only
  rw [txRequest_storeC (length_coordFrame_le _ _)]
  rfl

theorem storeAck_take (s : State) :
    storeAck (take s) =
      { take s with
        round :=
          { s.round with
            rt := s.round.rt.set s.round.pos.toNat (s.stamps.rx - s.stamps.txPoll)
            rd1 := s.round.rd1.set s.round.pos.toNat (frameTs (take s).mem)
            pos := s.round.pos + 1 }
        stamps := { s.stamps with lastRx := s.stamps.rx } } := by
  simp only [storeAck, take_round, take_stamps, stampSub]

theorem sequencer_of_expectedAck {s : State} (htakes : CoordTakes .awaitAcks s) (hwell : TakesWellFormed s)
    (hcode : fcode (take s).mem = 0x05) (hsource : s.session.targets[s.round.pos.toNat]? = some (srcId (take s).mem)) :
    act .sequencer s = .next (acceptAck (take s)) := by
  obtain ⟨-, -, hstate, -, -⟩ := id htakes
  rw [sequencer_of_awaitTakes s (.inl htakes), if_pos hstate,
    awaitMessage_eq_accept (e := .ack) hwell hcode (by decide) hsource]

/-- Settles O39: by the stored ACK, at the last position followed by the RANGE. -/
theorem ackIsRecorded : Obligations.AckIsRecorded := by
  intro s htakes hwell hcode hsource u i rt rd1
  have hlast : atLastPos (storeAck u) = true ↔ (s.round.pos + 1).toNat + 1 = s.session.nodeCount.toNat := by
    rw [atLastPos_iff, storeAck_take, take_session]
  rw [sequencer_of_expectedAck htakes hwell hcode hsource, acceptAck_eq]
  refine ⟨fun hmore => ?_, ?_⟩
  · rw [if_neg (mt hlast.mp hmore), armWindow_of_eq (t := storeAck u) (take_out s) (take_timing s), storeAck_take]
  · intro hend f
    have hframe : coordFrame .range (storeAck u) = f := by
      rw [coordFrame_eq, storeAck_take]
      simp only [take_seq, take_session]
      rfl
    rw [if_pos (hlast.mpr hend), sendRange_eq, hframe]
    refine ⟨_, rfl, ?_,
      holdsFrame_of_eq (holdsFrame_storeC_take (f := f) (t := storeAck u) (show 12 ≤ 127 by decide) rfl) rfl rfl⟩
    rw [storeAck_take]
    simp only [u, storeC, take_out, take_timing]
    rfl

/-! ## The accepted FINAL and the commit (44_coordinator.md R202, R203, R217) -/

theorem storeFinal_take (s : State) :
    storeFinal (take s) =
      { take s with
        round :=
          { s.round with
            rd2 := s.round.rd2.set s.round.pos.toNat (frameTs (take s).mem)
            pos := s.round.pos + 1 }
        stamps := { s.stamps with lastRx := s.stamps.rx } } := by
  simp only [storeFinal, take_round, take_stamps]

theorem sequencer_of_expectedFinal {s : State} (htakes : CoordTakes .awaitFinals s) (hwell : TakesWellFormed s)
    (hcode : fcode (take s).mem = 0x07) (hsource : s.session.targets[s.round.pos.toNat]? = some (srcId (take s).mem)) :
    act .sequencer s = .next (acceptFinal (take s)) := by
  obtain ⟨-, -, hstate, -, -⟩ := id htakes
  rw [sequencer_of_awaitTakes s (.inr htakes), hstate, if_neg (by decide),
    awaitMessage_eq_accept (e := .final) hwell hcode (by decide) hsource]

theorem roundIndices_all_iff (s : State) :
    (roundIndices s).all (targetValid s) = true ↔ ∀ i < s.session.nodeCount.toNat - 1, targetValid s i = true := by
  simp [roundIndices]

/-- The commit changes the registry's distances and the round's state, and nothing else. -/
theorem commitRound_spec (s : State) :
    commitRound s =
        { s with
          registry := (commitRound s).registry
          round := { s.round with pos := 0 }
          status := { s.status with roundDone := true, coordState := .complete } }
      ∧ (commitRound s).registry.map (fun p => (p.addr, p.id)) = s.registry.map (fun p => (p.addr, p.id))
      ∧ (∀ i < s.session.nodeCount.toNat - 1, ∀ k, findId (targetAt s i) s = some k →
        (∀ j < s.session.nodeCount.toNat - 1, targetAt s j = targetAt s i → j = i) →
          ∃ p, (commitRound s).registry[k]? = some p ∧ p.dist = targetDist s i)
      ∧ ∀ (k : Nat) (p : Peer), s.registry[k]? = some p →
        (∀ i < s.session.nodeCount.toNat - 1, findId (targetAt s i) s ≠ some k) → (commitRound s).registry[k]? = some p := by
  obtain ⟨heq, hids, hfound, hrest⟩ := foldl_regSetDist_spec (targetAt s) (targetDist s) (roundIndices s) s
  simp only [roundIndices, List.mem_range] at hfound hrest
  refine ⟨?_, hids, hfound, hrest⟩
  unfold commitRound
  dsimp only
  rw [heq]

/-- Settles O40: by the stored FINAL, at the last position followed by the commit or the abort. -/
theorem finalIsRecordedAndTheRoundCommits : Obligations.FinalIsRecordedAndTheRoundCommits := by
  intro s htakes hwell hcode hsource u r last valid
  obtain ⟨-, hrole, -, -, -⟩ := id htakes
  have hr : storeFinal u = r := storeFinal_take s
  have hsession : r.session = s.session := take_session s
  have hregistry : r.registry = s.registry := take_registry s
  have htarget : ∀ i, targetAt r i = targetAt s i := fun i => by rw [targetAt, hsession, targetAt]
  have hfind : ∀ d, findId d r = findId d s := fun d => by rw [findId, hregistry, findId]
  have hlast : atLastPos r = true ↔ last := by rw [atLastPos_iff, hsession]
  have hvalid : (roundIndices r).all (targetValid r) = true ↔ valid := by rw [roundIndices_all_iff, hsession]
  rw [sequencer_of_expectedFinal htakes hwell hcode hsource, acceptFinal_eq, hr]
  refine ⟨fun hmore => ?_, fun hend hbad => ?_, fun hend hgood => ?_⟩
  · rw [if_neg (mt hlast.mp hmore), armWindow_of_eq (t := r) (take_out s) (take_timing s)]
  · rw [if_pos (hlast.mpr hend), computeRound, if_neg (mt hvalid.mp hbad),
      abort_eq_coordAborted _ r ((take_role s).trans hrole)]
  · rw [if_pos (hlast.mpr hend), computeRound, if_pos (hvalid.mpr hgood)]
    obtain ⟨heq, hids, hfound, hrest⟩ := commitRound_spec r
    simp only [hsession, htarget, hfind, hregistry] at hids hfound hrest
    exact ⟨_, rfl, heq, hids, hfound, hrest⟩

/-! ## The timeout or error (44_coordinator.md R204) -/

theorem errorAbortCause_eq (c : ErrCause) : errorAbortCause c = if c = .rxTimeout then .rxTimeout else .rxError := by
  cases c <;> rfl

theorem sequencer_of_awaitError {s : State} (henable : s.enable = true) (hrole : s.role = .coord)
    (hstate : s.status.coordState = .awaitAcks ∨ s.status.coordState = .awaitFinals) (htx : s.status.txPending = false)
    (hmsg : s.status.msgPending = false) (herr : s.status.errPending = true) :
    act .sequencer s = .next (awaitError s) := by
  rw [sequencer_coord henable hrole]
  rcases hstate with h | h <;> simp [coordStep, h, awaitStep, htx, hmsg, herr]

theorem evictionCandidate_eq_some_iff (s : State) (p : Byte) :
    evictionCandidate s = some p ↔ s.session.targets[s.round.pos.toNat]? = some p ∧ p ≠ s.session.initId := by
  simp [evictionCandidate, turnTarget_eq, Option.filter_eq_some_iff]

theorem evictionCandidate_eq_none_iff (s : State) :
    evictionCandidate s = none ↔ ∀ p, s.session.targets[s.round.pos.toNat]? = some p → p = s.session.initId := by
  simp [evictionCandidate, turnTarget_eq, Option.filter_eq_none_iff]

/-- A removal reads and writes the registry alone. -/
theorem regRemove_errPending_false (p : Byte) (s : State) :
    regRemove p { s with status.errPending := false } =
      { s with registry := (regRemove p s).registry, status.errPending := false } := by
  have hfind : findId p { s with status.errPending := false } = findId p s := rfl
  rw [regRemove, regRemove, hfind]
  cases findId p s <;> rfl

/-- The peer whose turn it is is removed, and the abort names it. -/
theorem awaitError_of_candidate {s : State} {p : Byte} (hrole : s.role = .coord) (h : evictionCandidate s = some p) :
    awaitError s =
      { coordAborted (errorAbortCause s.status.errCause) s with
        registry := (regRemove p s).registry
        lastAbort := { cause := errorAbortCause s.status.errCause, evictId := p, evictV := true }
        status :=
          { s.status with
            errPending := false, discReq := true, respPhase := .poll, roundFail := true, coordState := .idle
            backoff := true } } := by
  have hcand : evictionCandidate { s with status.errPending := false } = some p := h
  unfold awaitError
  dsimp only
  rw [hcand]
  dsimp only
  rw [regRemove_errPending_false, abort_eq, if_pos hrole]
  rfl

/-- Without a peer to evict the abort is the plain one. -/
theorem awaitError_of_no_candidate {s : State} (hrole : s.role = .coord) (h : evictionCandidate s = none) :
    awaitError s =
      { coordAborted (errorAbortCause s.status.errCause) s with
        status :=
          { s.status with
            errPending := false, respPhase := .poll, roundFail := true, coordState := .idle, backoff := true } } := by
  have hcand : evictionCandidate { s with status.errPending := false } = none := h
  unfold awaitError
  dsimp only
  rw [hcand]
  dsimp only
  rw [abort_eq, if_pos hrole]
  rfl

/-- Settles O41: by whether there is a peer to evict. -/
theorem timeoutEvictsThePeer : Obligations.TimeoutEvictsThePeer := by
  intro s henable hrole hstate htx hmsg herr cause back
  have hcause : errorAbortCause s.status.errCause = cause := errorAbortCause_eq _
  rw [sequencer_of_awaitError henable hrole hstate htx hmsg herr]
  refine ⟨fun p hp hne => ?_, fun hnone => ?_⟩
  · rw [awaitError_of_candidate hrole ((evictionCandidate_eq_some_iff s p).mpr ⟨hp, hne⟩), hcause, regRemove_registry]
    cases findId p s <;> rfl
  · rw [awaitError_of_no_candidate hrole ((evictionCandidate_eq_none_iff s).mpr hnone), hcause]
    rfl

end Sys2Proof.Machine
end

section
/-! PROOFS. The transitions of `COORD_STATE` (44_coordinator.md R191, R220; 70_reset_and_hazards.md R290): the coordinator's step takes
them, a `CTRL` write and the block reset lead to IDLE, and nothing else changes the field. -/

namespace Sys2Proof.Machine

/-! ## What keeps `COORD_STATE` -/

/-- From `s` to `t` `COORD_STATE` did not change. -/
def KeepsCoordState (s t : State) : Prop := t.status.coordState = s.status.coordState

theorem keepsCoordState_take (s : State) : KeepsCoordState s (take s) := by rw [KeepsCoordState, take_status]

theorem keepsCoordState_regAdd (x : ExtAddr) (s : State) : KeepsCoordState s (regAdd x s) := by
  rw [KeepsCoordState, regAdd_status]

theorem keepsCoordState_commandEffect {s u : State} (h : CommandEffect s u) : KeepsCoordState s u := by
  cases h with
  | add x => exact keepsCoordState_regAdd x s
  | remove d => exact congrArg Status.coordState (regRemove_status d s)
  | setDist d v => exact congrArg Status.coordState (regSetDist_status d v s)
  | _ => rfl

/-- No command changes `COORD_STATE`. -/
theorem keepsCoordState_commanded {s t : State} (h : Commanded s t) : KeepsCoordState s t := by
  obtain ⟨u, c, heffect, rfl⟩ := h
  exact (keepsCoordState_commandEffect heffect :)

theorem keepsCoordState_runCommand {w : Word} {s t : State} (h : runCommand w s = .next t) : KeepsCoordState s t := by
  rcases runCommand_cases w s with ⟨i, -, e⟩ | ⟨-, e⟩ | ⟨-, e⟩ <;> rw [e] at h
  · exact keepsCoordState_commanded (commanded_of_exec h)
  · cases h; rfl
  · cases h; rfl

/-- Of the registers only `CTRL` has a write that reaches `COORD_STATE`. -/
theorem keepsCoordState_writeReg {r : HostReg} (hr : r ≠ .ctrl) (v : Word) (s : State) :
    KeepsCoordState s (writeReg r v s) := by
  cases r with
  | ctrl => exact absurd rfl hr
  | inlen =>
    unfold writeReg
    dsimp only
    split <;> rfl
  | _ => rfl

theorem keepsCoordState_writeLoc {l : Loc} (hl : l ≠ .reg .ctrl) (v : Word) (s : State) :
    KeepsCoordState s (writeLoc l v s) := by
  cases l with
  | reg r => exact keepsCoordState_writeReg (fun hr => hl (congrArg Loc.reg hr)) v s
  | inbuf off =>
    unfold writeLoc
    dsimp only
    split <;> rfl
  | _ => rfl

theorem writeCtrl_coordState (v : Word) (s : State) :
    KeepsCoordState s (writeCtrl v s) ∨ (writeCtrl v s).status.coordState = .idle := by
  unfold writeCtrl
  dsimp only
  split
  · exact .inl rfl
  · right
    rw [changeCtrl_eq]

theorem keepsCoordState_hostRead (size off : Nat) (s : State) : KeepsCoordState s (hostRead size off s) := by
  unfold hostRead
  split <;> rfl

theorem keepsCoordState_captureEvent (e : RadioEvent) (s : State) : KeepsCoordState s (captureEvent e s) := by
  have herr : ∀ c, KeepsCoordState s (onRxErr c s) := fun c => by
    unfold onRxErr
    dsimp only
    split <;> rfl
  cases e with
  | rxGood bytes len ts =>
    show KeepsCoordState s (onRxGood bytes len ts s)
    unfold onRxGood
    dsimp only
    split <;> split <;> rfl
  | rxError => exact herr .rxError
  | rxTimeout => exact herr .rxTimeout
  | txDone ts =>
    show KeepsCoordState s (onTxDone ts s)
    unfold onTxDone
    split <;> rfl

theorem keepsCoordState_backoffStep {s t : State} (h : backoffStep s = some t) : KeepsCoordState s t := by
  unfold backoffStep at h
  split at h
  · cases h
    rfl
  · nomatch h

/-! ## The responder -/

/-- A part of a step that, outside role COORD, keeps the role and `COORD_STATE`; the parts compose. -/
def RespKeeps (s t : State) : Prop := s.role ≠ .coord → t.role ≠ .coord ∧ KeepsCoordState s t

theorem respKeeps_of_eq {s t : State} (hrole : t.role = s.role) (hstatus : KeepsCoordState s t) : RespKeeps s t :=
  fun h => ⟨hrole ▸ h, hstatus⟩

theorem RespKeeps.trans {s t u : State} (h₁ : RespKeeps s t) (h₂ : RespKeeps t u) : RespKeeps s u := fun h => by
  obtain ⟨hrole, hkeep⟩ := h₁ h
  obtain ⟨hrole', hkeep'⟩ := h₂ hrole
  exact ⟨hrole', hkeep'.trans hkeep⟩

theorem respKeeps_rearm (s : State) : RespKeeps s (rearm s) := respKeeps_of_eq rfl rfl

/-- Outside role COORD an abort leaves `COORD_STATE` (60_exceptions.md R266). -/
theorem respKeeps_abort (c : AbortCause) (p : Option Byte) (s : State) : RespKeeps s (abort c p s) := fun h =>
  ⟨(abort_role c p s).symm ▸ h, by rw [KeepsCoordState, abort_eq, if_neg h]⟩

theorem respKeeps_advance (s : State) : RespKeeps s (advance s) := by
  unfold advance endPhase
  dsimp only
  split
  · split <;> exact respKeeps_of_eq rfl rfl
  · exact respKeeps_of_eq rfl rfl

theorem respKeeps_reply (s : State) : RespKeeps s (reply s) := respKeeps_of_eq rfl rfl

theorem respKeeps_arrival (s : State) : RespKeeps s (arrival s) := by
  have hstamp : RespKeeps s (stampPhase s) := by
    rw [stampPhase_eq]
    exact respKeeps_of_eq rfl rfl
  rcases arrival_cases s with e | e <;> rw [e]
  · exact (hstamp.trans (respKeeps_reply _)).trans (respKeeps_advance _)
  · exact (hstamp.trans (respKeeps_advance _)).trans (respKeeps_rearm _)

theorem respKeeps_mismatch (s : State) : RespKeeps s (mismatch s) := respKeeps_abort .respMismatch none s

theorem respKeeps_onConfig (s : State) : RespKeeps s (onConfig s) := by
  unfold onConfig
  split
  · dsimp only
    split <;> exact respKeeps_of_eq rfl rfl
  · exact respKeeps_rearm s

theorem respKeeps_onReset (s : State) : RespKeeps s (onReset s) := by
  unfold onReset
  dsimp only
  split
  · exact respKeeps_abort .respResetFrame none s
  · exact respKeeps_of_eq rfl rfl

theorem respKeeps_onStranger (s : State) : RespKeeps s (onStranger s) := by
  unfold onStranger
  split
  · exact respKeeps_mismatch s
  · exact respKeeps_of_eq rfl rfl

theorem respKeeps_onInitiatorPoll (s : State) : RespKeeps s (onInitiatorPoll s) := by
  unfold onInitiatorPoll
  split
  · exact (respKeeps_abort _ _ s).trans (respKeeps_arrival _)
  · exact respKeeps_arrival s

theorem respKeeps_onInitiatorRange (s : State) : RespKeeps s (onInitiatorRange s) := by
  unfold onInitiatorRange
  split
  · exact respKeeps_arrival s
  split
  · exact respKeeps_abort .respUnexpectedCode none s
  · exact respKeeps_rearm s

theorem respKeeps_onReplyFrame (fc : FuncCode) (s : State) : RespKeeps s (onReplyFrame fc s) := by
  unfold onReplyFrame
  split
  · exact respKeeps_rearm s
  split
  · exact respKeeps_mismatch s
  split
  · exact respKeeps_abort .respUnexpectedCode none s
  · exact respKeeps_arrival s

theorem respKeeps_onFrame (s : State) : RespKeeps s (onFrame s) := by
  rcases onFrame_cases s with e | e | e | e | ⟨-, e | e⟩ | e | e <;> rw [e]
  · exact respKeeps_rearm s
  · exact respKeeps_onConfig s
  · exact respKeeps_onReset s
  · exact respKeeps_onStranger s
  · exact respKeeps_onInitiatorPoll s
  · exact respKeeps_onInitiatorRange s
  · exact respKeeps_onReplyFrame .ack s
  · exact respKeeps_onReplyFrame .final s

theorem respKeeps_take (s : State) : RespKeeps s (take s) :=
  respKeeps_of_eq (take_role s) (keepsCoordState_take s)

theorem respKeeps_respStep {s t : State} (h : respStep s = some t) : RespKeeps s t := by
  obtain ⟨-, ⟨-, rfl⟩ | ⟨-, -, rfl⟩⟩ := respStep_cases h
  · rcases respMessage_eq s with e | e <;> rw [e]
    · exact respKeeps_take s
    · exact (respKeeps_take s).trans (respKeeps_onFrame _)
  · exact respKeeps_of_eq rfl rfl

/-! ## The coordinator -/

/-- The transitions of the coordinator's step (44_coordinator.md R191), with what an abort records. -/
inductive CoordMove (s t : State) : Prop where
  | keep (h : KeepsCoordState s t)
  | poll (h : s.status.coordState = .idle) (ht : t.status.coordState = .awaitAcks)
  | range (h : s.status.coordState = .awaitAcks) (ht : t.status.coordState = .awaitFinals)
  | commit (h : s.status.coordState = .awaitFinals) (ht : t.status.coordState = .complete)
  | restart (h : s.status.coordState = .complete) (ht : t.status.coordState = .idle)
  | abort (h : s.status.coordState = .awaitAcks ∨ s.status.coordState = .awaitFinals) (ht : t.status.coordState = .idle)
      (hfail : t.status.roundFail = true)

/-- What an abort leaves in role COORD (60_exceptions.md R266). -/
theorem abort_coordState {s : State} (hrole : s.role = .coord) (c : AbortCause) (p : Option Byte) :
    (abort c p s).status.coordState = .idle ∧ (abort c p s).status.roundFail = true := by
  rw [abort_eq, if_pos hrole]
  exact ⟨rfl, rfl⟩

theorem acceptAck_coordState (s : State) :
    KeepsCoordState s (acceptAck s) ∨ (acceptAck s).status.coordState = .awaitFinals := by
  rw [acceptAck_eq]
  split
  · exact .inr rfl
  · exact .inl rfl

theorem acceptFinal_coordState {s : State} (hrole : s.role = .coord) :
    KeepsCoordState s (acceptFinal s) ∨ (acceptFinal s).status.coordState = .complete
      ∨ ((acceptFinal s).status.coordState = .idle ∧ (acceptFinal s).status.roundFail = true) := by
  rw [acceptFinal_eq, computeRound]
  split
  · split
    · exact .inr (.inl rfl)
    · exact .inr (.inr (abort_coordState (s := storeFinal s) hrole _ _))
  · exact .inl rfl

theorem awaitError_coordState {s : State} (hrole : s.role = .coord) :
    (awaitError s).status.coordState = .idle ∧ (awaitError s).status.roundFail = true := by
  cases h : evictionCandidate s with
  | some p =>
    rw [awaitError_of_candidate hrole h]
    exact ⟨rfl, rfl⟩
  | none =>
    rw [awaitError_of_no_candidate hrole h]
    exact ⟨rfl, rfl⟩

/-- A step while awaiting keeps the state, aborts, or accepts a frame. -/
theorem awaitStep_coordState {e : FuncCode} {accept : State → State} {s t : State} (hrole : s.role = .coord)
    (h : awaitStep e accept s = some t) :
    KeepsCoordState s t ∨ (t.status.coordState = .idle ∧ t.status.roundFail = true) ∨ t = accept (take s) := by
  have htake : (take s).role = .coord := (take_role s).trans hrole
  obtain ⟨-, ⟨-, rfl⟩ | ⟨-, -, rfl⟩⟩ := awaitStep_cases h
  · rcases awaitMessage_cases e accept s with e | e | e | e | ⟨-, -, e⟩ <;> rw [e]
    · exact .inl (keepsCoordState_take s)
    · exact .inr (.inl (abort_coordState ((regAdd_role _ _).trans htake) _ _))
    · exact .inr (.inl (abort_coordState htake _ _))
    · exact .inr (.inl (abort_coordState htake _ _))
    · exact .inr (.inr rfl)
  · exact .inr (.inl (awaitError_coordState hrole))

theorem coordMove_idleStep {s t : State} (hidle : s.status.coordState = .idle) (h : idleStep s = some t) :
    CoordMove s t := by
  obtain ⟨-, ⟨-, rfl⟩ | ⟨-, -, rfl⟩ | ⟨-, -, -, -, rfl⟩⟩ := idleStep_cases h
  · refine .keep ?_
    unfold drainMessage
    dsimp only
    split
    · exact (keepsCoordState_regAdd _ _).trans (keepsCoordState_take s)
    · exact keepsCoordState_take s
  · exact .keep rfl
  · exact .poll hidle rfl

theorem coordMove_coordStep {s t : State} (hrole : s.role = .coord) (h : coordStep s = some t) : CoordMove s t := by
  have htake := keepsCoordState_take s
  rcases coordStep_cases s with ⟨hc, e⟩ | ⟨hc, e⟩ | ⟨hc, e⟩ | ⟨hc, e⟩ <;> rw [e] at h
  · cases h
    exact .restart hc rfl
  · exact coordMove_idleStep hc h
  · rcases awaitStep_coordState hrole h with hkeep | ⟨hidle, hfail⟩ | rfl
    · exact .keep hkeep
    · exact .abort (.inl hc) hidle hfail
    · rcases acceptAck_coordState (take s) with hkeep | hfinals
      · exact .keep (hkeep.trans htake)
      · exact .range hc hfinals
  · rcases awaitStep_coordState hrole h with hkeep | ⟨hidle, hfail⟩ | rfl
    · exact .keep hkeep
    · exact .abort (.inr hc) hidle hfail
    · rcases acceptFinal_coordState ((take_role s).trans hrole) with hkeep | hcomplete | ⟨hidle, hfail⟩
      · exact .keep (hkeep.trans htake)
      · exact .commit hc hcomplete
      · exact .abort (.inr hc) hidle hfail

theorem coordMove_sequencerStep {s t : State} (h : sequencerStep s = some t) : CoordMove s t := by
  obtain ⟨-, ⟨hrole, hcoord⟩ | ⟨hrole, hresp⟩⟩ := sequencerStep_cases h
  · exact coordMove_coordStep hrole hcoord
  · obtain ⟨-, hkeep⟩ := respKeeps_respStep hresp (by rw [hrole]; decide)
    exact .keep hkeep

/-! ## Every action -/

/-- What an action does to `COORD_STATE`. -/
inductive CoordStateEffect (s t : State) : Action → Prop where
  | keep {a : Action} (h : KeepsCoordState s t) : CoordStateEffect s t a
  | ctrlWrite {a : Action} {v : Word} (ha : HostWrites a s 0x000 v) (ht : t.status.coordState = .idle) :
      CoordStateEffect s t a
  | step (h : CoordMove s t) : CoordStateEffect s t .sequencer
  | reset (ht : t.status.coordState = .idle) : CoordStateEffect s t .blockReset

theorem coordStateEffect_of_hostWrite {a : Action} {size off : Nat} {v : Word} {s t : State}
    (ha : size = 4 → HostWrites a s off v) (h : hostWrite size off v s = .next t) : CoordStateEffect s t a := by
  rcases hostWrite_cases size off v s with ⟨-, e⟩ | ⟨-, -, e⟩ | ⟨hlegal, -, e⟩ <;> rw [e] at h
  · cases h
    exact .keep rfl
  · exact .keep (keepsCoordState_runCommand h)
  · cases h
    by_cases hloc : locate off = .reg .ctrl
    · have hoff : off = 0x000 := eq_offset_of_locate hloc
      subst hoff
      rcases writeCtrl_coordState v s with hkeep | hidle
      · exact .keep hkeep
      · exact .ctrlWrite (ha ((accessLegal_iff _ _).mp hlegal).1) hidle
    · exact .keep (keepsCoordState_writeLoc hloc v s)

theorem coordStateEffect_of_hostAccess {x : HostAccess} {s t : State} (h : hostAccess x s = .next t) :
    CoordStateEffect s t (.host x) := by
  cases x with
  | read size off => cases h; exact .keep (keepsCoordState_hostRead size off s)
  | write size off v => exact coordStateEffect_of_hostWrite (fun h4 => .inl (by rw [h4])) h

theorem coordStateEffect_of_busAccess {x : HostAccess} {s t : State} (h : busAccess x s = .next t) :
    CoordStateEffect s t (.bus x) := by
  cases x with
  | read size addr =>
    rw [busAccess] at h
    split at h
    · cases h; exact .keep (keepsCoordState_hostRead _ _ s)
    · cases h; exact .keep rfl
  | write size addr v =>
    rw [busAccess] at h
    split at h
    next hin =>
      obtain ⟨hbase, -⟩ : s.params.blockBase ≤ addr ∧ addr < s.params.blockBase + 0x1000 := of_decide_eq_true hin
      refine coordStateEffect_of_hostWrite (fun h4 => .inr ?_) h
      rw [h4, Nat.add_sub_cancel' hbase]
    next => cases h; exact .keep rfl

theorem act_coordStateEffect {a : Action} {s t : State} (h : act a s = .next t) : CoordStateEffect s t a := by
  cases a with
  | host x => exact coordStateEffect_of_hostAccess h
  | bus x => exact coordStateEffect_of_busAccess h
  | radio e => cases h; exact .keep (keepsCoordState_captureEvent e s)
  | sequencer =>
    cases h
    cases hstep : sequencerStep s with
    | none => exact .keep rfl
    | some u => exact .step (coordMove_sequencerStep hstep)
  | backoffTimer =>
    cases h
    cases hstep : backoffStep s with
    | none => exact .keep rfl
    | some u => exact .keep (keepsCoordState_backoffStep hstep)
  | blockReset => cases h; exact .reset rfl

/-- Settles O42: by the effect of the action, and of the coordinator's step among them. -/
theorem coordStateTransitions : Obligations.CoordStateTransitions := by
  intro a s t h hne
  cases act_coordStateEffect h with
  | keep hkeep => exact absurd hkeep hne
  | ctrlWrite ha hidle => exact .inr ⟨hidle, .inr (ha.imp (⟨_, ·⟩) (⟨_, ·⟩))⟩
  | reset hidle => exact .inr ⟨hidle, .inl rfl⟩
  | step hmove =>
    refine .inl ⟨rfl, ?_⟩
    cases hmove with
    | keep hkeep => exact absurd hkeep hne
    | poll hs ht => exact .inl ⟨hs, ht⟩
    | range hs ht => exact .inr (.inl ⟨hs, ht⟩)
    | commit hs ht => exact .inr (.inr (.inl ⟨hs, ht⟩))
    | restart hs ht => exact .inr (.inr (.inr (.inl ⟨hs, ht⟩)))
    | abort hs ht hfail => exact .inr (.inr (.inr (.inr ⟨hs, ht, hfail⟩)))

end Sys2Proof.Machine
end

section
/-! PROOFS. The DS-TWR arithmetic and its rounding (44_coordinator.md R212 to R218): validity as an open interval of exact rationals,
the binary exponent, rounding to even, and the binary32 patterns as multiples of a unit in the last place. -/

namespace Sys2Proof.Machine

/-! ## The intervals and the exact distance (44_coordinator.md R212 to R215) -/

theorem intervals_eq (s : State) (i : Nat) :
    intervals s i =
      if s.params.twrPairing = .literal then
        ⟨(rtAt s i).toNat, (rd1At s i).toNat, (tcAt s i).toNat, (rd2At s i).toNat⟩
      else ⟨(rtAt s i).toNat, (rd1At s i).toNat, (rd2At s i).toNat, (tcAt s i).toNat⟩ := by
  unfold intervals
  cases s.params.twrPairing <;> rfl

theorem distValid_iff (limit : Nat) (v : Intervals) :
    distValid limit v = true ↔ 0 < tofDen v ∧ 0 < tofNum v ∧ tofNum v * cMps < (limit * tofDen v * tickHz : Nat) :=
  decide_eq_true_iff

theorem exactDist_eq (v : Intervals) : exactDist v = (tofNum v * cMps : ℚ) / (tofDen v * tickHz : ℚ) := by
  rw [mul_div_mul_comm, ← mul_div_assoc]
  rfl

/-- The model's integer test of validity is that of the exact distance (44_coordinator.md R215). -/
theorem distValid_iff_exactDist (limit : Nat) (v : Intervals) :
    distValid limit v = true ↔ 0 < tofDen v ∧ 0 < exactDist v ∧ exactDist v < (limit : ℚ) := by
  rw [distValid_iff, exactDist_eq]
  refine and_congr_right fun hden => ?_
  have hd : (0 : ℚ) < tofDen v * tickHz := mul_pos (by exact_mod_cast hden) (by norm_num [tickHz])
  have hc : (0 : ℚ) < cMps := by norm_num [cMps]
  refine and_congr ?_ ?_
  · rw [div_pos_iff_of_pos_right hd, mul_pos_iff_of_pos_right hc, Int.cast_pos]
  · rw [div_lt_iff₀ hd, ← mul_assoc]
    exact_mod_cast Iff.rfl

/-- Settles O54: the model's integer test, divided by the denominator. -/
theorem validityIsTheOpenInterval : Obligations.ValidityIsTheOpenInterval :=
  fun s i => distValid_iff_exactDist s.distLimit.toNat (intervals s i)

/-! ## The laws of the time of flight (44_coordinator.md R218) -/

theorem tofNum_exchanged (v : Intervals) :
    tofNum { round1 := v.round2, reply1 := v.reply2, round2 := v.round1, reply2 := v.reply1 } = tofNum v := by
  simp only [tofNum, Nat.mul_comm]

theorem tofDen_exchanged (v : Intervals) :
    tofDen { round1 := v.round2, reply1 := v.reply2, round2 := v.round1, reply2 := v.reply1 } = tofDen v := by
  simp only [tofDen]
  omega

/-- With `TC` = `RD2` the pairing does not matter. -/
theorem intervals_of_tc_eq_rd2 {s : State} {i : Nat} (h : (tcAt s i).toNat = (rd2At s i).toNat) :
    intervals s i = ⟨(rtAt s i).toNat, (rd1At s i).toNat, (rd2At s i).toNat, (rd2At s i).toNat⟩ := by
  rw [intervals_eq, h, ite_self]

/-- Two round trips that each exceed their reply by the same `2t` give back `t`: the numerator is `t` times the denominator. -/
theorem tofNum_div_tofDen {v : Intervals} {t : ℚ} (h₁ : (v.round1 : ℚ) = v.reply1 + 2 * t)
    (h₂ : (v.round2 : ℚ) = v.reply2 + 2 * t) (hden : 0 < tofDen v) : (tofNum v : ℚ) / (tofDen v : ℚ) = t := by
  have hd : (tofDen v : ℚ) ≠ 0 := by exact_mod_cast hden.ne'
  rw [div_eq_iff hd]
  simp only [tofNum, tofDen]
  push_cast
  rw [h₁, h₂]
  ring

/-- Settles O56: by the four laws above. -/
theorem timeOfFlightLaws : Obligations.TimeOfFlightLaws := by
  refine ⟨intervals_eq, fun v limit hden => ?_, fun v => ⟨tofNum_exchanged v, tofDen_exchanged v⟩, fun s i h p q => ?_,
    fun v t _ h₁ h₂ hden => tofNum_div_tofDen h₁ h₂ hden⟩
  · have hinvalid : distValid limit v = false := by
      rw [← Bool.not_eq_true, distValid_iff]
      omega
    unfold tofDen at hden
    exact ⟨by omega, by omega, by omega, by omega, hinvalid⟩
  · have hpairing : ∀ p : TwrPairing, intervals { s with params := { s.params with twrPairing := p } } i
        = ⟨(rtAt s i).toNat, (rd1At s i).toNat, (rd2At s i).toNat, (rd2At s i).toNat⟩ :=
      fun p => intervals_of_tc_eq_rd2 (s := { s with params := { s.params with twrPairing := p } }) h
    exact (hpairing p).trans (hpairing q).symm

/-! ## Rounding to the nearest integer, ties to even -/

/-- The integer `m` is nearest to `x`, and even where another is as near. -/
def NearestInt (x : ℚ) (m : ℤ) : Prop := |m - x| ≤ 1 / 2 ∧ (|m - x| = 1 / 2 → Even m)

/-- No integer is nearer, and where another is as near the nearest one is even. -/
theorem NearestInt.le_abs {x : ℚ} {m : ℤ} (h : NearestInt x m) (j : ℤ) :
    |m - x| ≤ |j - x| ∧ (|j - x| = |m - x| → j ≠ m → Even m) := by
  obtain ⟨hhalf, heven⟩ := h
  by_cases hj : j = m
  · subst hj
    exact ⟨le_rfl, fun _ hne => absurd rfl hne⟩
  · have hone : (1 : ℚ) ≤ |(j : ℚ) - m| := by exact_mod_cast Int.one_le_abs (sub_ne_zero.mpr hj)
    have htriangle : |(j : ℚ) - m| ≤ |j - x| + |m - x| := by
      rw [abs_sub_comm (m : ℚ) x]
      exact abs_sub_le _ _ _
    exact ⟨by linarith, fun heq _ => heven (by linarith)⟩

/-- Rounding keeps a natural bound on either side. -/
theorem NearestInt.bounds {x : ℚ} {m a b : Nat} (h : NearestInt x m) (ha : (a : ℚ) ≤ x) (hb : x < (b : ℚ)) :
    a ≤ m ∧ m ≤ b := by
  obtain ⟨hlo, hhi⟩ := abs_le.mp h.1
  rw [Int.cast_natCast] at hlo hhi
  have ham : (a : ℚ) < (m + 1 : Nat) := by push_cast; linarith
  have hmb : (m : ℚ) < (b + 1 : Nat) := by push_cast; linarith
  exact ⟨Nat.lt_succ_iff.mp (by exact_mod_cast ham), Nat.lt_succ_iff.mp (by exact_mod_cast hmb)⟩

/-- The model's rounding is to the nearest integer: by the three comparisons of the remainder with half the divisor. -/
theorem nearestInt_roundEven (n : Nat) {d : Nat} (hd : 0 < d) : NearestInt ((n : ℚ) / d) (roundEven n d) := by
  have hdq : (0 : ℚ) < d := by exact_mod_cast hd
  have hdiv : (n : ℚ) / d = (n / d : Nat) + (n % d : Nat) / d := by
    rw [add_div' _ _ _ hdq.ne', div_left_inj' hdq.ne']
    exact_mod_cast (Nat.div_add_mod' n d).symm
  have hlt : ((n % d : Nat) : ℚ) / d < 1 := (div_lt_one hdq).mpr (by exact_mod_cast Nat.mod_lt n hd)
  have hnonneg : (0 : ℚ) ≤ ((n % d : Nat) : ℚ) / d := by positivity
  rw [hdiv]
  unfold roundEven NearestInt
  dsimp only
  generalize n / d = q at *
  generalize hr : ((n % d : Nat) : ℚ) / d = r at *
  split
  next hbelow =>
    have : r < 1 / 2 := by
      rw [← hr, div_lt_div_iff₀ hdq (by norm_num)]
      exact_mod_cast (by omega : n % d * 2 < 1 * d)
    simp only [Int.cast_natCast, sub_add_cancel_left, abs_neg, abs_of_nonneg hnonneg]
    exact ⟨this.le, fun h => absurd h this.ne⟩
  split
  next habove =>
    have : 1 / 2 < r := by
      rw [← hr, div_lt_div_iff₀ (by norm_num) hdq]
      exact_mod_cast (by omega : 1 * d < n % d * 2)
    have habs : |(((q + 1 : Nat) : ℤ) : ℚ) - (q + r)| = 1 - r := by
      push_cast
      rw [add_sub_add_left_eq_sub, abs_of_pos (by linarith)]
    rw [habs]
    exact ⟨by linarith, fun h => absurd h (by linarith)⟩
  next hbelow habove =>
    have htie : r = 1 / 2 := by
      rw [← hr, div_eq_div_iff hdq.ne' two_ne_zero]
      exact_mod_cast (by omega : n % d * 2 = 1 * d)
    have habs : |(((q + q % 2 : Nat) : ℤ) : ℚ) - (q + r)| = 1 / 2 := by
      rw [Int.cast_natCast, Nat.cast_add, add_sub_add_left_eq_sub, htie]
      rcases Nat.mod_two_eq_zero_or_one q with h | h <;> rw [h] <;> norm_num
    exact ⟨habs.le, fun _ => by rw [Int.even_iff]; omega⟩

/-! ## The binary exponent -/

theorem two_zpow_eq_div (e : ℤ) : (2 : ℚ) ^ e = 2 ^ e.toNat / 2 ^ (-e).toNat := by
  rw [← zpow_natCast, ← zpow_natCast, ← zpow_sub₀ two_ne_zero]
  congr 1
  omega

theorem atLeastPow_iff (n : Nat) {d : Nat} (hd : 0 < d) (e : ℤ) : atLeastPow n d e = true ↔ (2 : ℚ) ^ e ≤ n / d := by
  have hdq : (0 : ℚ) < d := by exact_mod_cast hd
  rw [two_zpow_eq_div, div_le_div_iff₀ (by positivity) hdq, atLeastPow, decide_eq_true_iff, Nat.mul_comm d]
  exact_mod_cast Iff.rfl

/-- The quotient lies in the binade of its exponent. -/
theorem binExponent_bounds {n d : Nat} (hn : 0 < n) (hd : 0 < d) :
    (2 : ℚ) ^ binExponent n d ≤ n / d ∧ (n / d : ℚ) < 2 ^ (binExponent n d + 1) := by
  have hdq : (0 : ℚ) < d := by exact_mod_cast hd
  have hnlo : (2 : ℚ) ^ (n.log2 : ℤ) ≤ n := by exact_mod_cast Nat.log2_self_le hn.ne'
  have hnhi : (n : ℚ) < 2 ^ (n.log2 + 1 : ℤ) := by exact_mod_cast Nat.lt_log2_self (n := n)
  have hdlo : (2 : ℚ) ^ (d.log2 : ℤ) ≤ d := by exact_mod_cast Nat.log2_self_le hd.ne'
  have hdhi : (d : ℚ) < 2 ^ (d.log2 + 1 : ℤ) := by exact_mod_cast Nat.lt_log2_self (n := d)
  have hlo : (2 : ℚ) ^ ((n.log2 : ℤ) - d.log2 - 1) ≤ n / d := by
    rw [sub_sub, zpow_sub₀ two_ne_zero]
    exact div_le_div₀ (by positivity) hnlo hdq hdhi.le
  have hhi : (n / d : ℚ) < 2 ^ ((n.log2 : ℤ) - d.log2 + 1) := by
    rw [sub_add_eq_add_sub, zpow_sub₀ two_ne_zero]
    exact div_lt_div₀ hnhi hdlo (by positivity) (by positivity)
  unfold binExponent
  dsimp only
  split
  next h => exact ⟨(atLeastPow_iff n hd _).mp h, hhi⟩
  next h =>
    rw [atLeastPow_iff n hd, not_le] at h
    exact ⟨hlo, by rwa [sub_add_cancel]⟩

/-! ## The finite binary32 values -/

/-- The unit in the last place of the binary32 numbers with exponent field `e`. -/
def f32Ulp (e : Nat) : ℚ := 2 ^ e / 2 ^ 150

theorem f32Ulp_pos (e : Nat) : 0 < f32Ulp e := by unfold f32Ulp; positivity

/-- The unit as the quotient of the two powers by which the model scales before it rounds, one of which is 1. -/
theorem f32Ulp_eq_div (e : Nat) : f32Ulp e = 2 ^ (e - 150) / 2 ^ (150 - e) := by
  unfold f32Ulp
  rw [div_eq_div_iff (by positivity) (by positivity), ← pow_add, ← pow_add,
    show e + (150 - e) = e - 150 + 150 by omega]

/-- A unit is a multiple of every smaller one. -/
theorem f32Ulp_add (e k : Nat) : f32Ulp (e + k) = 2 ^ k * f32Ulp e := by
  unfold f32Ulp
  rw [pow_add]
  ring

theorem f32_exponent_toNat (w : Word) : (w.extractLsb' 23 8).toNat = w.toNat / 2 ^ 23 % 2 ^ 8 := by
  rw [BitVec.extractLsb'_toNat, Nat.shiftRight_eq_div_pow]

theorem f32_fraction_toNat (w : Word) : (w.extractLsb' 0 23).toNat = w.toNat % 2 ^ 23 := by
  rw [BitVec.extractLsb'_toNat, Nat.shiftRight_zero]

/-- The significand of a finite pattern: the fraction, with the leading one of a normal number. -/
def f32Significand (w : Word) : Nat :=
  if (w.extractLsb' 23 8).toNat = 0 then (w.extractLsb' 0 23).toNat else 2 ^ 23 + (w.extractLsb' 0 23).toNat

theorem f32Significand_lt (w : Word) : f32Significand w < 2 ^ 24 := by
  have hfrac := (w.extractLsb' 0 23).isLt
  unfold f32Significand
  split <;> omega

/-- A binary32 value is its sign, its significand and its unit; the subnormal numbers share the unit of exponent field 1. -/
theorem f32Value_eq (w : Word) :
    f32Value w = (if w.getLsbD 31 then -1 else 1) * (f32Significand w * f32Ulp (max 1 (w.extractLsb' 23 8).toNat)) := by
  have hmag : (if (w.extractLsb' 23 8).toNat = 0 then ((w.extractLsb' 0 23).toNat : ℚ) / 2 ^ 149
      else (2 ^ 23 + ((w.extractLsb' 0 23).toNat : ℚ)) * 2 ^ (w.extractLsb' 23 8).toNat / 2 ^ 150)
      = f32Significand w * f32Ulp (max 1 (w.extractLsb' 23 8).toNat) := by
    unfold f32Significand f32Ulp
    split
    next h =>
      rw [h]
      norm_num
      ring
    next h =>
      rw [Nat.max_eq_right (by omega), mul_div_assoc]
      push_cast
      rfl
  unfold f32Value
  dsimp only
  rw [hmag]
  split <;> simp

/-- Every binary32 value is below the binade of the exponent field `e`, or a multiple of the unit there. -/
theorem f32Value_lt_or_multiple (y : Word) {e : Nat} (he : 0 < e) :
    f32Value y < 2 ^ 23 * f32Ulp e ∨ ∃ j : ℤ, f32Value y = j * f32Ulp e := by
  have hvalue := f32Value_eq y
  have hsig : (f32Significand y : ℚ) < 2 ^ 24 := by exact_mod_cast f32Significand_lt y
  generalize max 1 (y.extractLsb' 23 8).toNat = e' at hvalue
  by_cases hlt : e' < e
  · obtain ⟨k, rfl⟩ : ∃ k, e = e' + k + 1 := ⟨e - e' - 1, by omega⟩
    left
    have hulp : 2 ^ 24 * f32Ulp e' ≤ 2 ^ 23 * f32Ulp (e' + k + 1) := by
      have hk : f32Ulp e' ≤ 2 ^ k * f32Ulp e' := le_mul_of_one_le_left (f32Ulp_pos e').le (one_le_pow₀ one_le_two)
      rw [Nat.add_assoc, f32Ulp_add, pow_succ (2 : ℚ) k]
      linarith
    have hmag : f32Significand y * f32Ulp e' < 2 ^ 24 * f32Ulp e' := mul_lt_mul_of_pos_right hsig (f32Ulp_pos e')
    have hnonneg : 0 ≤ f32Significand y * f32Ulp e' := mul_nonneg (Nat.cast_nonneg _) (f32Ulp_pos e').le
    rw [hvalue]
    split <;> linarith
  · obtain ⟨k, rfl⟩ : ∃ k, e' = e + k := ⟨e' - e, by omega⟩
    right
    rw [hvalue, f32Ulp_add]
    split
    · exact ⟨-(f32Significand y * 2 ^ k), by push_cast; ring⟩
    · exact ⟨f32Significand y * 2 ^ k, by push_cast; ring⟩

/-! ## The rounded pattern (44_coordinator.md R216) -/

/-- The pattern of `m` units of exponent field `e`: where the rounding carried `m` to 2^24, it carries into the exponent. -/
theorem pattern_spec {e m : Nat} (hpos : 0 < e) (he : e < 254) (hlo : 2 ^ 23 ≤ m) (hhi : m ≤ 2 ^ 24) {w : Word}
    (hw : w.toNat = (e - 1) * 2 ^ 23 + m) :
    f32Value w = m * f32Ulp e ∧ w.getLsbD 31 = false ∧ w.getLsbD 0 = decide (m % 2 = 1)
      ∧ 0 < (w.extractLsb' 23 8).toNat ∧ (w.extractLsb' 23 8).toNat < 255 := by
  have hsign : w.getLsbD 31 = false := by
    rw [BitVec.getLsbD, hw]
    exact Nat.testBit_lt_two_pow (by omega)
  have hodd : w.getLsbD 0 = decide (m % 2 = 1) := by
    rw [BitVec.getLsbD, hw, Nat.testBit_zero, decide_eq_decide]
    omega
  have hfields : (w.extractLsb' 23 8).toNat = (if m = 2 ^ 24 then e + 1 else e)
      ∧ (w.extractLsb' 0 23).toNat = if m = 2 ^ 24 then 0 else m - 2 ^ 23 := by
    rw [f32_exponent_toNat, f32_fraction_toNat, hw]
    split <;> omega
  obtain ⟨hexp, hfrac⟩ := hfields
  refine ⟨?_, hsign, hodd, by rw [hexp]; split <;> omega, by rw [hexp]; split <;> omega⟩
  rw [f32Value_eq, hsign, if_neg Bool.false_ne_true, one_mul, f32Significand, hexp, hfrac]
  by_cases hm : m = 2 ^ 24
  · rw [if_pos hm, if_neg (by omega), if_pos hm, Nat.max_eq_right (by omega), f32Ulp_add, hm]
    norm_num
    ring
  · rw [if_neg hm, if_neg (by omega), if_neg hm, Nat.max_eq_right (by omega), Nat.add_sub_cancel' hlo]

/-- Rounding to the nearest unit of the quotient's own binade is rounding to the nearest binary32 value: the values of the lower
binades are all below the quotient's, whose own lower end is a multiple of the unit. -/
theorem nearestEven_of_nearestInt {q : ℚ} {e : Nat} {m : ℤ} {w : Word} (he : 0 < e) (hq : 2 ^ 23 * f32Ulp e ≤ q)
    (hm : NearestInt (q / f32Ulp e) m) (hfinite : F32Finite w) (hvalue : f32Value w = m * f32Ulp e)
    (heven : Even m → w.getLsbD 0 = false) : NearestEven q w := by
  have hulp := f32Ulp_pos e
  have hscale : ∀ j : ℤ, |j * f32Ulp e - q| = |j - q / f32Ulp e| * f32Ulp e := fun j => by
    rw [← abs_of_pos hulp, ← abs_mul, abs_of_pos hulp, sub_mul, div_mul_cancel₀ q hulp.ne']
  refine ⟨hfinite, fun y _ => ?_⟩
  rcases f32Value_lt_or_multiple y he with hlt | ⟨j, hj⟩
  · have hbinade : |f32Value w - q| ≤ |((2 ^ 23 : ℤ) : ℚ) * f32Ulp e - q| := by
      rw [hvalue, hscale, hscale]
      exact mul_le_mul_of_nonneg_right (hm.le_abs _).1 hulp.le
    have hfar : |((2 ^ 23 : ℤ) : ℚ) * f32Ulp e - q| < |f32Value y - q| := by
      push_cast
      rw [abs_sub_comm, abs_of_nonneg (by linarith), abs_sub_comm, abs_of_pos (by linarith)]
      linarith
    exact ⟨(hbinade.trans_lt hfar).le, fun h _ => absurd h (hbinade.trans_lt hfar).ne'⟩
  · obtain ⟨hle, htie⟩ := hm.le_abs j
    rw [hvalue, hj, hscale, hscale]
    refine ⟨mul_le_mul_of_nonneg_right hle hulp.le, fun heq hne => heven (htie (mul_right_cancel₀ hulp.ne' heq) ?_)⟩
    rintro rfl
    exact hne rfl

/-- A quotient in the normal range lies in the binade of an exponent field. -/
theorem exists_binade {n d : Nat} (hn : 0 < n) (hd : 0 < d) (hlo : 1 / 2 ^ 126 ≤ (n / d : ℚ)) (hhi : (n / d : ℚ) < 2 ^ 126) :
    ∃ e : Nat, 0 < e ∧ e < 254 ∧ binExponent n d = (e : ℤ) - 127
      ∧ 2 ^ 23 * f32Ulp e ≤ (n / d : ℚ) ∧ (n / d : ℚ) < 2 ^ 24 * f32Ulp e := by
  obtain ⟨hle, hlt⟩ := binExponent_bounds hn hd
  have habove : (-126 : ℤ) < binExponent n d + 1 := by
    rw [← zpow_lt_zpow_iff_right₀ (one_lt_two : (1 : ℚ) < 2)]
    refine lt_of_le_of_lt ?_ hlt
    rw [zpow_neg, ← one_div]
    exact hlo
  have hbelow : binExponent n d < 126 := by
    rw [← zpow_lt_zpow_iff_right₀ (one_lt_two : (1 : ℚ) < 2)]
    exact hle.trans_lt hhi
  obtain ⟨e, he⟩ : ∃ e : Nat, binExponent n d = (e : ℤ) - 127 := ⟨(binExponent n d + 127).toNat, by omega⟩
  have hpow : (2 : ℚ) ^ binExponent n d = 2 ^ 23 * f32Ulp e := by
    rw [he, zpow_sub₀ two_ne_zero, zpow_natCast, f32Ulp]
    norm_num
    ring
  refine ⟨e, by omega, by omega, he, hpow ▸ hle, ?_⟩
  rw [zpow_add_one₀ two_ne_zero, hpow] at hlt
  linarith

/-- In the normal range `f32(n/d)` is the nearest binary32 value, ties to even, and a positive normal number. -/
theorem f32OfRatio_nearestEven {n d : Nat} (hn : 0 < n) (hd : 0 < d) (hlo : 1 / 2 ^ 126 ≤ (n / d : ℚ))
    (hhi : (n / d : ℚ) < 2 ^ 126) :
    NearestEven (n / d) (f32OfRatio n d) ∧ (f32OfRatio n d).getLsbD 31 = false
      ∧ 0 < ((f32OfRatio n d).extractLsb' 23 8).toNat ∧ ((f32OfRatio n d).extractLsb' 23 8).toNat < 255 := by
  obtain ⟨e, hpos, he, hexp, hbinade, hbinade'⟩ := exists_binade hn hd hlo hhi
  have hdq : (0 : ℚ) < d := by exact_mod_cast hd
  have hscaled : ((n * 2 ^ (150 - e) : Nat) : ℚ) / (d * 2 ^ (e - 150) : Nat) = n / d / f32Ulp e := by
    rw [f32Ulp_eq_div, div_div_eq_mul_div, mul_div_assoc, ← mul_div_mul_comm]
    push_cast
    rfl
  have hnearest := nearestInt_roundEven (n * 2 ^ (150 - e)) (d := d * 2 ^ (e - 150)) (by positivity)
  have hpattern : f32OfRatio n d = BitVec.ofNat 32
      (min ((e - 1) * 2 ^ 23 + roundEven (n * 2 ^ (150 - e)) (d * 2 ^ (e - 150))) 0x7F800000) := by
    unfold f32OfRatio
    dsimp only
    rw [if_neg (by omega), hexp, max_eq_left (by omega), show (23 - ((e : ℤ) - 127)).toNat = 150 - e by omega,
      show ((e : ℤ) - 127 - 23).toNat = e - 150 by omega, show ((e : ℤ) - 127 + 126).toNat = e - 1 by omega]
  generalize roundEven (n * 2 ^ (150 - e)) (d * 2 ^ (e - 150)) = m at hnearest hpattern
  rw [hscaled] at hnearest
  obtain ⟨hmlo, hmhi⟩ := hnearest.bounds (a := 2 ^ 23) (b := 2 ^ 24)
    ((le_div_iff₀ (f32Ulp_pos e)).mpr (by exact_mod_cast hbinade))
    ((div_lt_iff₀ (f32Ulp_pos e)).mpr (by exact_mod_cast hbinade'))
  have htoNat : (f32OfRatio n d).toNat = (e - 1) * 2 ^ 23 + m := by
    rw [hpattern, BitVec.toNat_ofNat]
    omega
  obtain ⟨hvalue, hsign, hodd, hnormal, hfinite⟩ := pattern_spec hpos he hmlo hmhi htoNat
  refine ⟨nearestEven_of_nearestInt hpos hbinade hnearest hfinite (by exact_mod_cast hvalue) fun heven => ?_,
    hsign, hnormal, hfinite⟩
  rw [Int.even_iff] at heven
  rw [hodd, decide_eq_false_iff_not]
  omega

/-! ## The distance of a valid target -/

theorem exactDist_eq_ratio {v : Intervals} (h : 0 < tofNum v) : exactDist v = (distNum v : ℚ) / distDen v := by
  have hnum : ((tofNum v).toNat : ℚ) = tofNum v := by exact_mod_cast Int.toNat_of_nonneg h.le
  rw [exactDist_eq, distNum, distDen, Nat.cast_mul, Nat.cast_mul, hnum]

/-- Every interval is a count of 40 bits. -/
theorem tofDen_intervals_lt (s : State) (i : Nat) : tofDen (intervals s i) < 2 ^ 42 := by
  have h1 := (rtAt s i).isLt
  have h2 := (rd1At s i).isLt
  have h3 := (rd2At s i).isLt
  have h4 := (tcAt s i).isLt
  rw [intervals_eq]
  split <;> simp only [tofDen] <;> omega

/-- Settles O55: a valid distance lies between 2^-126 and 2^32 metres, so it rounds to a normal number. -/
theorem storedDistanceIsNearestEven : Obligations.StoredDistanceIsNearestEven := by
  intro s i hvalid
  obtain ⟨hden, hnum, -⟩ := (distValid_iff _ _).mp hvalid
  obtain ⟨-, -, hlimit⟩ := (distValid_iff_exactDist _ _).mp hvalid
  have hdenlt := tofDen_intervals_lt s i
  have hratio := exactDist_eq_ratio hnum
  have hn : 0 < distNum (intervals s i) := by unfold distNum cMps; omega
  have hd : 0 < distDen (intervals s i) := by unfold distDen tickHz; omega
  have hlo : (1 : ℚ) / 2 ^ 126 ≤ (distNum (intervals s i) / distDen (intervals s i) : ℚ) := by
    rw [div_le_div_iff₀ (by positivity) (by exact_mod_cast hd)]
    have : distDen (intervals s i) < 2 ^ 42 * tickHz := by unfold distDen tickHz; omega
    have : 1 * distDen (intervals s i) ≤ distNum (intervals s i) * 2 ^ 126 := by unfold tickHz at this; omega
    exact_mod_cast this
  have hhi : (distNum (intervals s i) / distDen (intervals s i) : ℚ) < 2 ^ 126 := by
    rw [← hratio]
    have : (s.distLimit.toNat : ℚ) < 2 ^ 32 := by exact_mod_cast s.distLimit.isLt
    linarith
  rw [hratio]
  exact f32OfRatio_nearestEven hn hd hlo hhi

end Sys2Proof.Machine
end

section
/-! PROOFS. The responder's answers to a frame it does not accept (45_responder.md R235 to R239, R247): what each part of the step
leaves, then the blink to a stranger, the phase resets, the control frames and the dropped frames. -/

namespace Sys2Proof.Machine

/-! ## What each part of the step leaves -/

/-- The receiver armed after a part of the step that asked the radio for nothing (60_exceptions.md R282). -/
theorem rearm_of_eq {s t : State} (hout : t.out = s.out) : rearm t = { t with out := s.out ++ [.rxon 0] } := by
  simp only [rearm, rxOn, emit, hout]

theorem respActive_take_iff (s : State) :
    respActive (take s) = true ↔ (s.status.respPhase = .range ∨ 0 < s.round.pos.toNat) := by
  rw [respActive_iff, take_status, take_round]

/-- `take()` clears the flag and writes `CBUF` and `CLEN` (44_coordinator.md R196). -/
theorem take_eq (s : State) :
    take s = { s with mem := (take s).mem, clen := (take s).clen, status := { s.status with msgPending := false } } := by
  unfold take
  split <;> rfl

/-- Outside a phase a round reset clears the arrays only: the phase is already the first (43_session.md R171). -/
theorem roundReset_of_not_respActive {s : State} (h : ¬respActive s = true) :
    roundReset s = { s with round := Round.cleared s.params.cap } := by
  have hpoll : s.status.respPhase = .poll := by
    cases hphase : s.status.respPhase with
    | poll => rfl
    | range => exact absurd ((respActive_iff s).mpr (.inl hphase)) h
  rw [roundReset, ← hpoll]

/-- `mismatch()` is an abort that forgets the initiator (45_responder.md R239). -/
theorem mismatch_eq_respAborted {s : State} (h : s.role = .resp) :
    mismatch s = { respAborted .respMismatch s with session := { s.session with initId := 0 } } := by
  unfold mismatch
  rw [abort_eq_respAborted _ _ h]
  rfl

theorem fromStranger_iff (s : State) :
    fromStranger s = true ↔ (s.session.initId = 0 ∨ srcId s.mem ≠ s.session.initId) := by
  simp [fromStranger]

/-! ## The blink to a stranger (45_responder.md R237, R247) -/

/-- The delay drawn lies in the jitter window, whatever the draw is (45_responder.md R247). -/
theorem blinkDelay_in_window (t : Timing) (raw : Nat) :
    if t.blinkDlyMax.toNat ≤ t.blinkDlyMin.toNat then blinkDelay t raw = t.blinkDlyMin
    else t.blinkDlyMin.toNat ≤ (blinkDelay t raw).toNat ∧ (blinkDelay t raw).toNat ≤ t.blinkDlyMax.toNat := by
  unfold blinkDelay
  split
  next => rfl
  next hwindow =>
    have hmax := t.blinkDlyMax.isLt
    have hdraw : raw % (t.blinkDlyMax.toNat - t.blinkDlyMin.toNat + 1) < t.blinkDlyMax.toNat - t.blinkDlyMin.toNat + 1 :=
      Nat.mod_lt _ (Nat.succ_pos _)
    rw [BitVec.toNat_add, BitVec.toNat_ofNat]
    omega

/-- `blinkReply()` stores the blink and asks for the transmission of all but its trimmed end (45_responder.md R247). -/
theorem blinkReply_eq (s : State) :
    blinkReply s =
      { storeC (blinkFrame s.seq 0 s.eui) s with
        draws := s.draws + 1
        status := { s.status with txPending := true, txKind := .blink }
        out := s.out ++
          [.tx ((blinkFrame s.seq 0 s.eui).take (24 - s.params.blinkLenTrim))
            (.dly (s.stamps.rx + (blinkDelay s.timing (Config.blinkDraw s.draws)).zeroExtend 40)) true 0] } := by
  have hsent := cbufBytes_storeC (blinkFrame s.seq 0 s.eui) s (n := 24 - s.params.blinkLenTrim)
    (by rw [length_blinkFrame]; omega) (by unfold bufSize; omega)
  unfold blinkReply txRequest
  dsimp only
  rw [← hsent]
  rfl

/-- The state a stranger's frame leaves before the round reset and the blink: a phase in progress is dropped with its initiator. -/
def strangerMet (s : State) : State :=
  if respActive s then { respAborted .respMismatch s with session := { s.session with initId := 0 } } else s

theorem onStranger_eq {s : State} (hrole : s.role = .resp) : onStranger s = blinkReply (roundReset (strangerMet s)) := by
  unfold onStranger strangerMet
  split
  · rw [mismatch_eq_respAborted hrole]; rfl
  · rfl

theorem sequencer_of_stranger {s : State} (htakes : RespTakes s) (hwell : TakesWellFormed s)
    (hcode : fcode (take s).mem = 0x04 ∨ fcode (take s).mem = 0x06)
    (hsource : s.session.initId = 0 ∨ srcId (take s).mem ≠ s.session.initId) :
    act .sequencer s = .next (onStranger (take s)) := by
  have hstranger : fromStranger (take s) = true := by rwa [fromStranger_iff, take_session]
  rw [sequencer_of_wellFormed htakes hwell]
  rcases hcode with hcode | hcode
  · rw [onFrame_of_fcode (c := .poll) hcode]
    simp only [hstranger, if_true]
  · rw [onFrame_of_fcode (c := .range) hcode]
    simp only [hstranger, if_true]

/-- What the blink is made from is as it was before the step. -/
theorem strangerMet_take (s : State) :
    strangerMet (take s) =
      { strangerMet (take s) with
        params := s.params, eui := s.eui, seq := s.seq, timing := s.timing, stamps := s.stamps, out := s.out
        mem := (take s).mem, draws := s.draws } := by
  unfold strangerMet
  split
  · simp [respAborted]
  · rw [take_eq s]

/-- Settles O43: by the state before the blink, in a phase and outside one. -/
theorem strangerGetsABlink : Obligations.StrangerGetsABlink := by
  intro s htakes hwell hcode hsource u v f
  have hrole : u.role = .resp := (take_role s).trans htakes.2.1
  have hmet : strangerMet u = v := by simp only [v, strangerMet, respActive_take_iff, take_session, u]
  have hlen : f.length ≤ 127 := (length_blinkFrame s.seq 0 s.eui).trans_le (by decide)
  have hfix := strangerMet_take s
  rw [hmet] at hfix
  rw [sequencer_of_stranger htakes hwell hcode hsource, onStranger_eq hrole, hmet, hfix, blinkReply_eq]
  exact ⟨_, _, rfl, blinkDelay_in_window _ _, rfl, holdsFrame_of_eq (holdsFrame_storeC_take (f := f) hlen rfl) rfl rfl⟩

/-! ## Frames that do not fit (45_responder.md R238, R239) -/

theorem funcCodeOf_funcCodeByte (c : FuncCode) : funcCodeOf (funcCodeByte c) = some c := by cases c <;> rfl

/-- No two function codes share a byte (30_encoding.md R102). -/
theorem funcCodeByte_inj {c d : FuncCode} : funcCodeByte c = funcCodeByte d ↔ c = d := by
  refine ⟨fun h => ?_, congrArg _⟩
  rw [← Option.some_inj, ← funcCodeOf_funcCodeByte c, h, funcCodeOf_funcCodeByte]

/-- The byte of the expected code, by phase and position (45_responder.md R234). -/
theorem funcCodeByte_expectedCode (s : State) :
    funcCodeByte (expectedCode s) =
      if s.status.respPhase = .poll then (if s.round.pos = 0 then 0x04 else 0x05)
      else if s.round.pos = 0 then 0x06 else 0x07 := by
  unfold expectedCode
  cases s.status.respPhase with
  | poll => exact apply_ite funcCodeByte (s.round.pos = 0) .poll .ack
  | range => exact apply_ite funcCodeByte (s.round.pos = 0) .range .final

section
variable {c : FuncCode} {s : State}

theorem onReplyFrame_of_not_respActive (h : ¬respActive s = true) : onReplyFrame c s = rearm s :=
  if_pos (by simp [h])

theorem onReplyFrame_of_wrongSource (h : respActive s = true) (hsource : expectedSource s ≠ some (srcId s.mem)) :
    onReplyFrame c s = rearm (mismatch s) := by
  rw [onReplyFrame, if_neg (by simp [h]), if_pos hsource]

theorem onReplyFrame_of_wrongCode (h : respActive s = true) (hsource : expectedSource s = some (srcId s.mem))
    (hcode : expectedCode s ≠ c) : onReplyFrame c s = rearm (abort .respUnexpectedCode none s) := by
  rw [onReplyFrame, if_neg (by simp [h]), if_neg (not_not.mpr hsource), if_pos hcode]

theorem onReplyFrame_of_due (h : respActive s = true) (hsource : expectedSource s = some (srcId s.mem))
    (hcode : expectedCode s = c) : onReplyFrame c s = arrival s := by
  rw [onReplyFrame, if_neg (by simp [h]), if_neg (not_not.mpr hsource), if_neg (not_not.mpr hcode)]

/-- An ACK or a FINAL is handled as a reply of its code (45_responder.md R238). -/
theorem sequencer_of_reply (htakes : RespTakes s) (hwell : TakesWellFormed s)
    (hcode : fcode (take s).mem = 0x05 ∨ fcode (take s).mem = 0x07) :
    ∃ c, funcCodeByte c = fcode (take s).mem ∧ act .sequencer s = .next (onReplyFrame c (take s)) := by
  rw [sequencer_of_wellFormed htakes hwell]
  rcases hcode with hcode | hcode
  · exact ⟨.ack, hcode.symm, by rw [onFrame_of_fcode (c := .ack) hcode]⟩
  · exact ⟨.final, hcode.symm, by rw [onFrame_of_fcode (c := .final) hcode]⟩

/-- The source of the taken frame is the initiator. -/
theorem not_fromStranger_take (hinit : s.session.initId ≠ 0) (hsource : srcId (take s).mem = s.session.initId) :
    ¬fromStranger (take s) = true := by
  rw [fromStranger_iff, take_session]
  exact not_or.mpr ⟨hinit, not_not.mpr hsource⟩

theorem sequencer_of_initiatorRange (htakes : RespTakes s) (hwell : TakesWellFormed s) (hcode : fcode (take s).mem = 0x06)
    (hinit : s.session.initId ≠ 0) (hsource : srcId (take s).mem = s.session.initId) :
    act .sequencer s = .next (onInitiatorRange (take s)) := by
  rw [sequencer_of_wellFormed htakes hwell, onFrame_of_fcode (c := .range) hcode]
  simp only [not_fromStranger_take hinit hsource]
  rfl

end

/-- The receiver armed after an abort (45_responder.md R238, R239; 60_exceptions.md R266). -/
theorem rearm_respAborted_take (cause : AbortCause) (s : State) :
    rearm (respAborted cause (take s)) = { respAborted cause (take s) with out := s.out ++ [.rxon 0] } :=
  rearm_of_eq (take_out s)

/-- Settles O44: by the branch of the reply, or of the initiator's RANGE, that each frame takes. -/
theorem unfittingFrameResetsThePhase : Obligations.UnfittingFrameResetsThePhase := by
  intro s htakes hwell u active on x expected fits
  have hrole : u.role = .resp := (take_role s).trans htakes.2.1
  have hactive : respActive u = true ↔ active := respActive_take_iff s
  have hexpected : expectedSource u = expected := by rw [expectedSource_eq, take_round, take_session]
  have hx : funcCodeByte (expectedCode u) = x := by rw [funcCodeByte_expectedCode, take_status, take_round]
  have habort : rearm (abort .respUnexpectedCode none u) = on (respAborted .respUnexpectedCode u) := by
    rw [abort_eq_respAborted _ _ hrole, rearm_respAborted_take]
  have hdrop : rearm u = on u := rearm_of_eq (take_out s)
  refine ⟨fun hcode => ?_, fun hcode hinit hsource hdue => ?_⟩
  · obtain ⟨c, hc, hact⟩ := sequencer_of_reply htakes hwell hcode
    rw [hact]
    refine ⟨fun hidle => ?_, fun ha hwrong => ?_, fun ha hfits hwrong => ?_⟩
    · rw [onReplyFrame_of_not_respActive (mt hactive.mp hidle), hdrop]
    · rw [onReplyFrame_of_wrongSource (hactive.mpr ha) (hexpected ▸ hwrong), mismatch_eq_respAborted hrole, take_session]
      exact congrArg _ (rearm_of_eq (take_out s))
    · have hne : expectedCode u ≠ c := fun he => hwrong (by rw [← hc, ← he, hx])
      rw [onReplyFrame_of_wrongCode (hactive.mpr ha) (hexpected.trans hfits) hne, habort]
  · have hne : ¬expectedCode u = .range := fun he => hdue (by rw [← hx, he]; rfl)
    rw [sequencer_of_initiatorRange htakes hwell hcode hinit hsource, onInitiatorRange, if_neg hne]
    refine ⟨fun ha => ?_, fun hidle => ?_⟩
    · rw [if_pos (hactive.mpr ha), habort]
    · rw [if_neg (mt hactive.mp hidle), hdrop]

/-! ## Config, RESET, dropped frames and errors (45_responder.md R231, R232, R235, R236) -/

/-- The triple a config's payload holds (30_encoding.md R103). -/
def heldTriple (s : State) : ConfigTriple :=
  { init := cbufByte s.mem (payloadOff s.mem), assigned := cbufByte s.mem (payloadOff s.mem + 1)
    total := cbufByte s.mem (payloadOff s.mem + 2) }

/-- The held config is addressed to this node, covered by its length, and its total is legal (45_responder.md R235). -/
def HoldsOwnConfig (s : State) : Prop :=
  dstMode s.mem = .extended ∧ dstExt s.mem = s.eui ∧ payloadOff s.mem + 3 ≤ s.clen.toNat ∧ (heldTriple s).total ≠ 0
    ∧ (heldTriple s).total.toNat ≤ s.params.maxNodes

section
variable {s : State} (hcode : fcode s.mem = 0x03)
include hcode

theorem acceptedConfig_of_own (h : HoldsOwnConfig s) : acceptedConfig s = some (heldTriple s) := by
  obtain ⟨hmode, hdst, hlen, hlegal⟩ := h
  rw [acceptedConfig, if_pos ⟨hmode, hdst⟩, parseCfg_of_covered ⟨hcode, hlen⟩]
  exact Option.filter_eq_some_iff.mpr ⟨rfl, (totalLegal_iff _ _).mpr hlegal⟩

theorem acceptedConfig_of_not_own (h : ¬HoldsOwnConfig s) : acceptedConfig s = none := by
  rw [acceptedConfig]
  split
  next haddr =>
    by_cases hlen : payloadOff s.mem + 3 ≤ s.clen.toNat
    · have hillegal : ¬totalLegal (heldTriple s).total s = true := fun hlegal =>
        h ⟨haddr.1, haddr.2, hlen, (totalLegal_iff _ _).mp hlegal⟩
      rw [parseCfg_of_covered ⟨hcode, hlen⟩]
      exact if_neg hillegal
    · rw [parseCfg_of_not_covered fun hcovered => hlen hcovered.2]
      rfl
  next => rfl

end

theorem onConfig_of_none {s : State} (h : acceptedConfig s = none) : onConfig s = rearm s := by
  rw [onConfig, h]

/-- An accepted config records the abort of a phase in progress, then derives the session (45_responder.md R235). -/
theorem onConfig_of_some {s : State} {t : ConfigTriple} {active : Prop} [Decidable active] (h : acceptedConfig s = some t)
    (hactive : respActive s = true ↔ active) :
    onConfig s =
      rearm (deriveSession t.assigned t.init t.total
        { s with
          status := { s.status with roundFail := s.status.roundFail || decide active }
          lastAbort := if active then { cause := .respConfig, evictId := 0, evictV := false } else s.lastAbort }) := by
  rw [onConfig, h]
  by_cases ha : active
  · simp [hactive, ha, recordAbort]
  · simp [hactive, ha]

/-- A RESET clears the phase, with the record of an abort if one was active (45_responder.md R236). -/
theorem onReset_of_respActive {s : State} (hrole : s.role = .resp) (h : respActive s = true) :
    onReset s = rearm (respAborted .respResetFrame s) := by
  rw [onReset, if_pos h, abort_eq_respAborted _ _ hrole]
  rfl

theorem onReset_of_not_respActive {s : State} (h : ¬respActive s = true) :
    onReset s = rearm { s with round := Round.cleared s.params.cap } := by
  rw [onReset, if_neg h, ← roundReset_of_not_respActive h]

theorem funcCodeOf_eq_none : ∀ b : Byte, b = 0x00 ∨ 0x08 < b → funcCodeOf b = none := by decide

/-- An oversized or malformed frame, a blink, a broadcast and a frame of unknown code only turn the receiver on again
(45_responder.md R231). -/
theorem sequencer_of_dropped {s : State} (htakes : RespTakes s)
    (h : ¬TakesWellFormed s ∨ fcode (take s).mem = 0x01 ∨ fcode (take s).mem = 0x02 ∨ fcode (take s).mem = 0x00
      ∨ 0x08 < fcode (take s).mem) : act .sequencer s = .next (rearm (take s)) := by
  by_cases hwell : TakesWellFormed s
  · rw [sequencer_of_wellFormed htakes hwell]
    rcases h.resolve_left (not_not.mpr hwell) with hcode | hcode | hcode
    · rw [onFrame_of_fcode (c := .blink) hcode]
    · rw [onFrame_of_fcode (c := .bcast) hcode]
    · rw [onFrame, funcCodeOf_eq_none _ hcode]
  · have hreject : ¬(inlenAccepted s && wellFormed (take s).mem (take s).clen) = true := by
      rwa [Bool.and_eq_true, inlenAccepted_iff]
    rw [sequencer_of_respTakes htakes, respMessage, if_neg hreject]

/-- Settles O46: by the code of the frame, and for a config by whether it is accepted. -/
theorem controlFramesAndErrors : Obligations.ControlFramesAndErrors := by
  refine ⟨?_, fun s henable hrole htx hmsg herr => ?_⟩
  · intro s htakes u active on po own init n mine
    have hrole : u.role = .resp := (take_role s).trans htakes.2.1
    have hactive : respActive u = true ↔ active := respActive_take_iff s
    have hdrop : rearm u = on u := rearm_of_eq (take_out s)
    have hmine : HoldsOwnConfig u ↔ mine := by
      unfold HoldsOwnConfig
      rw [take_eui, take_params]
      rfl
    have hframe : ∀ hwell : TakesWellFormed s, act .sequencer s = .next (onFrame u) := sequencer_of_wellFormed htakes
    refine ⟨fun h => ?_, fun hwell hcode => ⟨fun ha => ?_, fun hidle => ?_⟩, fun hwell hcode hother => ?_,
      fun hwell hcode hown => ?_⟩
    · rw [sequencer_of_dropped htakes h, hdrop]
    · rw [hframe hwell, onFrame_of_fcode (c := .reset) hcode]
      simp only [onReset_of_respActive hrole (hactive.mpr ha)]
      exact congrArg _ (rearm_respAborted_take _ s)
    · rw [hframe hwell, onFrame_of_fcode (c := .reset) hcode]
      simp only [onReset_of_not_respActive (mt hactive.mp hidle), u, take_params]
      exact congrArg _ (rearm_of_eq (take_out s))
    · rw [hframe hwell, onFrame_of_fcode (c := .config) hcode]
      simp only [onConfig_of_none (acceptedConfig_of_not_own hcode (mt hmine.mp hother)), hdrop]
    · rw [hframe hwell, onFrame_of_fcode (c := .config) hcode]
      simp only [onConfig_of_some (acceptedConfig_of_own hcode (hmine.mpr hown)) hactive, deriveSession_eq, u, take_params,
        take_lastAbort]
      exact congrArg _ (rearm_of_eq (take_out s))
  · have hstep : respStep s = some (rearm { s with status.errPending := false }) := by simp [respStep, htx, hmsg, herr]
    simp only [act, sequencerStep, henable, hrole, hstep]
    rfl

end Sys2Proof.Machine
end

section
/-! PROOFS. The responder's expected arrivals (45_responder.md R238, R240 to R244, R246): the reply and the end of the phase, each as
the state it leaves, and the four frames that arrive. -/

namespace Sys2Proof.Machine

/-! ## The parts of an arrival (45_responder.md R240) -/

/-- When the phase began: at the arrival at position 0 (45_responder.md R240). -/
def phaseStart (s : State) : Stamp := if s.round.pos = 0 then s.stamps.rx else s.stamps.phaseRx

theorem stampPhase_eq_phaseStart (s : State) :
    stampPhase s = { s with stamps := { s.stamps with phaseRx := phaseStart s } } := by
  unfold stampPhase phaseStart
  split <;> rfl

/-- At the wait position the arrival replies, before it the receiver is turned on (45_responder.md R240). -/
theorem arrival_eq (s : State) :
    arrival s =
      if s.round.pos + 1 = s.session.waitPos then advance (reply (stampPhase s)) else rearm (advance (stampPhase s)) := by
  have hturn : atWaitPos { stampPhase s with round.pos := (stampPhase s).round.pos + 1 } = true
      ↔ s.round.pos + 1 = s.session.waitPos := by
    rw [atWaitPos_iff, stampPhase_eq]
  unfold arrival
  rw [← stampPhase]
  dsimp only
  split
  next h => rw [if_pos (hturn.mp h)]; rfl
  next h => rw [if_neg (mt hturn.mpr h)]; rfl

/-- This arrival is the one at the last position (45_responder.md R240). -/
abbrev ArrivesLast (s : State) : Prop := (s.round.pos + 1).toNat + 1 = s.session.nodeCount.toNat

/-- The count moves on; after the last position the phase advances or the round completes (45_responder.md R240, R244). -/
theorem advance_eq (s : State) :
    advance s =
      { s with
        round :=
          if ArrivesLast s then if s.status.respPhase = .poll then { s.round with pos := 0 } else Round.cleared s.params.cap
          else { s.round with pos := s.round.pos + 1 }
        seq := if ArrivesLast s ∧ s.status.respPhase = .range then s.seq + 1 else s.seq
        status :=
          { s.status with
            respPhase :=
              if ArrivesLast s then if s.status.respPhase = .poll then .range else .poll else s.status.respPhase
            roundDone := s.status.roundDone || decide (ArrivesLast s ∧ s.status.respPhase = .range) } } := by
  unfold advance endPhase
  dsimp only
  split
  next h =>
    have hlast : ArrivesLast s := (atLastPos_iff _).mp h
    split
    next hphase =>
      have hpoll : s.status.respPhase = .poll := hphase
      simp [eq_true hlast, hpoll]
    next hphase =>
      have hrange : s.status.respPhase = .range := hphase
      simp [eq_true hlast, hrange, completeRound, roundReset]
  next h =>
    have hmore : ¬ArrivesLast s := fun hlast => h ((atLastPos_iff _).mpr hlast)
    simp only [hmore, false_and, decide_false, Bool.or_false, if_false]

/-! ## The reply (45_responder.md R242, R243) -/

theorem low32_eq (v : Stamp) : low32 v = v.extractLsb' 0 32 := BitVec.eq_of_toNat_eq (by simp [low32])

/-- The value a reply scheduled for `t` embeds: under STANDARD the FINAL carries the delay since the ACK, every other reply its own
delay since the start of the phase (45_responder.md R243). -/
theorem replyValue_eq (t : Stamp) (s : State) :
    replyValue t s =
      if s.params.twrPairing = .standard ∧ s.status.respPhase = .range then
        (s.stamps.phaseRx - s.stamps.ackTx).extractLsb' 0 32
      else (t - s.stamps.phaseRx).extractLsb' 0 32 := by
  simp only [replyValue, low32_eq, stampSub]
  cases hpair : s.params.twrPairing with
  | literal => simp
  | standard =>
    cases hphase : s.status.respPhase with
    | poll => simp
    | range => simp

theorem funcCodeByte_replyCode (s : State) :
    funcCodeByte (replyCode s) = if s.status.respPhase = .poll then 0x05 else 0x07 := by
  unfold replyCode
  cases s.status.respPhase <;> rfl

theorem replyKind_eq (s : State) : replyKind s = if s.status.respPhase = .poll then .ack else .final := by
  unfold replyKind
  cases s.status.respPhase <;> rfl

/-- The sixteen bytes of a reply (30_encoding.md R103, 45_responder.md R243). -/
theorem replyFrame_eq (s : State) :
    replyFrame s =
      [0x41, 0x88, s.seq, 0xCA, 0xDE, s.session.initId, 0x00, s.session.ownId, 0x00,
        if s.status.respPhase = .poll then 0x05 else 0x07] ++ le4 (replyValue s.stamps.schedTx s) ++ [0x00, 0x00] := by
  rw [replyFrame, rangingFrame_eq, le2_shortOfId, funcCodeByte_replyCode]
  rfl

/-- The state a reply leaves. -/
theorem reply_eq_storeC (s : State) :
    reply s =
      { storeC (replyFrame (scheduleReply s)) (scheduleReply s) with
        out := s.out ++
          [.tx (replyFrame (scheduleReply s)) (.dly (s.stamps.rx + s.timing.replyDelay.zeroExtend 40)) true 0]
        status := { s.status with txPending := true, txKind := replyKind s } } := by
  have hlen := length_replyFrame_le (scheduleReply s)
  exact (reply_eq s).trans (txRequest_storeC hlen _ _ _ _ _)

/-! ## The four frames that arrive (45_responder.md R238, R246) -/

/-- Beside the round, the phase and the abort record, the state an arrival starts from is the one before the step with the frame
taken. -/
structure ArrivesFrom (s b : State) : Prop where
  params : b.params = s.params
  session : b.session = s.session
  seq : b.seq = s.seq
  timing : b.timing = s.timing
  stamps : b.stamps = s.stamps
  out : b.out = s.out
  mem : b.mem = (take s).mem
  clen : b.clen = (take s).clen
  txPending : b.status.txPending = s.status.txPending

theorem arrivesFrom_take (s : State) : ArrivesFrom s (take s) := by constructor <;> simp

theorem arrivesFrom_respAborted (c : AbortCause) (s : State) : ArrivesFrom s (respAborted c (take s)) := by
  constructor <;> simp [respAborted]

section
variable {s : State} (htakes : RespTakes s) (hwell : TakesWellFormed s)
include htakes hwell

/-- A POLL of the initiator is the first arrival of a new phase (45_responder.md R238, R246). -/
theorem sequencer_of_initiatorPoll {active : Prop} [Decidable active] (hcode : fcode (take s).mem = 0x04)
    (hinit : s.session.initId ≠ 0) (hsource : srcId (take s).mem = s.session.initId)
    (hactive : respActive (take s) = true ↔ active) :
    act .sequencer s =
      .next (arrival (if active then respAborted .respUnexpectedCode (take s) else take s)) := by
  have hrole : (take s).role = .resp := (take_role s).trans htakes.2.1
  rw [sequencer_of_wellFormed htakes hwell, onFrame_of_fcode (c := .poll) hcode]
  simp only [not_fromStranger_take hinit hsource, onInitiatorPoll, hactive, abort_eq_respAborted _ _ hrole]
  rfl

/-- The initiator's RANGE at the start of the range phase arrives (45_responder.md R238). -/
theorem sequencer_of_dueRange (hcode : fcode (take s).mem = 0x06) (hinit : s.session.initId ≠ 0)
    (hsource : srcId (take s).mem = s.session.initId) (hphase : s.status.respPhase = .range) (hpos : s.round.pos = 0) :
    act .sequencer s = .next (arrival (take s)) := by
  have hexpected : expectedCode (take s) = .range := by simp [expectedCode, hphase, hpos]
  rw [sequencer_of_initiatorRange htakes hwell hcode hinit hsource, onInitiatorRange, if_pos hexpected]

/-- An ACK in the poll phase or a FINAL in the range phase arrives from the target whose turn it is (45_responder.md R238). -/
theorem sequencer_of_dueReply (hcode : fcode (take s).mem = if s.status.respPhase = .poll then 0x05 else 0x07)
    (hpos : 0 < s.round.pos.toNat) (hsource : s.session.targets[s.round.pos.toNat]? = some (srcId (take s).mem)) :
    act .sequencer s = .next (arrival (take s)) := by
  have hnz : ¬s.round.pos = 0 := fun h0 => by simp [h0] at hpos
  have hactive : respActive (take s) = true := (respActive_take_iff s).mpr (.inr hpos)
  have hexpected : expectedSource (take s) = some (srcId (take s).mem) := by
    rwa [expectedSource_eq, take_round, take_session, if_neg hnz]
  have hbyte : funcCodeByte (expectedCode (take s)) = fcode (take s).mem := by
    rw [funcCodeByte_expectedCode, take_status, take_round, if_neg hnz, if_neg hnz, hcode]
  have hreply : fcode (take s).mem = 0x05 ∨ fcode (take s).mem = 0x07 := by
    rw [hcode]
    split
    · exact .inl rfl
    · exact .inr rfl
  obtain ⟨c, hc, hact⟩ := sequencer_of_reply htakes hwell hreply
  rw [hact, onReplyFrame_of_due hactive hexpected (funcCodeByte_inj.mp (hbyte.trans hc.symm))]

end

/-- Settles O45: by the state the arrival leaves, with a reply at the wait position and without one elsewhere. -/
theorem arrivalRepliesAndAdvances : Obligations.ArrivalRepliesAndAdvances := by
  intro s htakes hwell u active fits fromInit poll due harrives b start c myTurn last sched value f
  have hactive : respActive u = true ↔ active := respActive_take_iff s
  have hact : act .sequencer s = .next (arrival b) := by
    by_cases hpoll : poll
    · obtain ⟨hcode, hinit, hsource⟩ := id hpoll
      rw [sequencer_of_initiatorPoll htakes hwell hcode hinit hsource hactive]
      simp only [b, hpoll, true_and]
      rfl
    · have hb : b = u := if_neg fun h => hpoll h.1
      rw [hb]
      rcases harrives.resolve_left hpoll with ⟨hcode, ⟨hinit, hsource⟩, hphase, hpos⟩ | ⟨hcode, hphase, hpos, hsource⟩
        | ⟨hcode, hphase, hpos, hsource⟩
      · exact sequencer_of_dueRange htakes hwell hcode hinit hsource hphase hpos
      · exact sequencer_of_dueReply htakes hwell (by rw [hcode, hphase, if_pos rfl]) hpos hsource
      · exact sequencer_of_dueReply htakes hwell (by rw [hcode, hphase, if_neg (by decide)]) hpos hsource
  have hb : ArrivesFrom s b := by
    unfold b
    split
    · exact arrivesFrom_respAborted _ s
    · exact arrivesFrom_take s
  obtain ⟨hparams, hsession, hseq, htiming, hstamps, hout, hmem, hclen, hpending⟩ := hb
  have hstart : phaseStart b = start := by rw [phaseStart, hstamps]
  rw [hact, arrival_eq, hsession, stampPhase_eq_phaseStart, hstart, hstamps]
  by_cases hturn : myTurn
  · let v : State := { b with stamps := { s.stamps with phaseRx := start, schedTx := sched } }
    have hv : scheduleReply { b with stamps := { s.stamps with phaseRx := start } } = v := by
      simp only [v, sched, ← htiming]
      rfl
    have hframe : replyFrame v = f := by
      rw [replyFrame_eq, replyValue_eq]
      simp only [v, hseq, hsession, hparams]
      rfl
    have hlen : f.length ≤ 127 := hframe ▸ length_replyFrame_le v
    rw [if_pos hturn, reply_eq_storeC, hv, hframe, advance_eq, replyKind_eq]
    refine ⟨_, rfl, ?_, fun _ => holdsFrame_of_eq (holdsFrame_storeC_take (t := v) hlen hmem) rfl rfl, absurd hturn⟩
    simp only [storeC, v, hout, hparams, hseq, hsession, htiming, if_pos hturn, decide_eq_true hturn]
    rfl
  · have hidle : decide myTurn = b.status.txPending := by
      rw [decide_eq_false hturn, hpending, htakes.2.2.1]
    rw [if_neg hturn, advance_eq]
    refine ⟨_, rfl, ?_, (absurd · hturn), fun _ => ⟨hmem, hclen⟩⟩
    simp only [rearm, rxOn, emit, hout, hparams, hseq, hsession, if_neg hturn, hidle]
    rfl

end Sys2Proof.Machine
end

section
/-! PROOFS. What the responder's step sends (45_responder.md R237, R249): nothing, the blink to a stranger, or the answer of an
arrival, which needs an initiator and a wait position below the last. -/

namespace Sys2Proof.Machine

/-- What a frame makes a responder send, with what an arrival's sender and position must be. -/
inductive Sends (s t : State) : Prop where
  | nothing (h : t.status.txPending = s.status.txPending)
  | blink (h : t = onStranger s)
  | arrival (b : State) (h : t = arrival b) (hinit : s.session.initId ≠ 0) (hsession : b.session = s.session)
      (hpending : b.status.txPending = s.status.txPending)
      (hpos : b.round.pos = 0 ∨ (b.round.pos = s.round.pos ∧ s.round.pos.toNat < tgtCount s))

theorem RadioQuiet.sends {s t : State} (h : RadioQuiet s t) : Sends s t := by
  obtain ⟨-, -, -, hpending⟩ := h
  exact .nothing hpending

/-! ## The frames, one by one -/

theorem sends_onInitiatorPoll {s : State} (hinit : s.session.initId ≠ 0) : Sends s (onInitiatorPoll s) := by
  unfold onInitiatorPoll
  split
  · exact .arrival _ rfl hinit (by simp) (by simp) (.inl (by simp [Round.cleared]))
  next hidle => exact .arrival s rfl hinit rfl rfl (.inl (pos_eq_zero_of_not_respActive hidle))

theorem sends_onInitiatorRange {s : State} (hinit : s.session.initId ≠ 0) : Sends s (onInitiatorRange s) := by
  unfold onInitiatorRange
  split
  next hcode => exact .arrival s rfl hinit rfl rfl (.inl (pos_eq_zero_of_expectedCode_range hcode))
  split
  · exact ((radioQuiet_abort _ _ s).trans (radioQuiet_rearm _)).sends
  · exact (radioQuiet_rearm s).sends

theorem sends_onReplyFrame {s : State} (h : s.Inv) (hrole : s.role = .resp) (c : FuncCode) : Sends s (onReplyFrame c s) := by
  by_cases hactive : respActive s = true
  · by_cases hsource : expectedSource s = some (srcId s.mem)
    · by_cases hcode : expectedCode s = c
      · rw [onReplyFrame_of_due hactive hsource hcode]
        exact .arrival s rfl (initId_ne_zero_of_respActive h hrole hactive) rfl rfl
          ((turn_of_expectedSource hsource).imp_right fun hlt => ⟨rfl, hlt⟩)
      · rw [onReplyFrame_of_wrongCode hactive hsource hcode]
        exact ((radioQuiet_abort _ _ s).trans (radioQuiet_rearm _)).sends
    · rw [onReplyFrame_of_wrongSource hactive hsource]
      exact ((radioQuiet_mismatch s).trans (radioQuiet_rearm _)).sends
  · rw [onReplyFrame_of_not_respActive hactive]
    exact (radioQuiet_rearm s).sends

theorem sends_onFrame {s : State} (h : s.Inv) (hrole : s.role = .resp) : Sends s (onFrame s) := by
  rcases onFrame_cases s with e | e | e | e | ⟨hfrom, e | e⟩ | e | e <;> rw [e]
  · exact (radioQuiet_rearm s).sends
  · exact (radioQuiet_onConfig s).sends
  · exact (radioQuiet_onReset s).sends
  · exact .blink rfl
  · exact sends_onInitiatorPoll (initId_ne_zero_of_not_fromStranger hfrom)
  · exact sends_onInitiatorRange (initId_ne_zero_of_not_fromStranger hfrom)
  · exact sends_onReplyFrame h hrole .ack
  · exact sends_onReplyFrame h hrole .final

/-- The sequencer's action in role RESP, where it leaves a transmission outstanding that was not: a frame that made it send. -/
theorem sends_of_sequencer {s t : State} (h : s.Inv) (hrole : s.role = .resp) (hact : act .sequencer s = .next t)
    (hbefore : s.status.txPending = false) (hafter : t.status.txPending = true) : Sends (take s) t := by
  cases hact
  cases hstep : sequencerStep s with
  | none => simp [hstep, hbefore] at hafter
  | some t =>
    rw [hstep, Option.getD_some] at hafter
    obtain ⟨-, ⟨hcoord, -⟩ | ⟨-, hresp⟩⟩ := sequencerStep_cases hstep
    · simp [hrole] at hcoord
    obtain ⟨-, ⟨-, rfl⟩ | ⟨-, -, rfl⟩⟩ := respStep_cases hresp
    · rcases respMessage_eq s with e | e <;> rw [Option.getD_some, e]
      · exact (radioQuiet_rearm _).sends
      · exact sends_onFrame (inv_take h) ((take_role s).trans hrole)
    · simp [hbefore] at hafter

/-! ## The answers of a stranger's frame and of an arrival -/

theorem onStranger_txKind {s : State} (hrole : s.role = .resp) : (onStranger s).status.txKind = .blink := by
  rw [onStranger_eq hrole, blinkReply_eq]

theorem onStranger_initId {s : State} (hrole : s.role = .resp) (hinit : s.session.initId = 0) :
    (onStranger s).session.initId = 0 := by
  have hmet : (strangerMet s).session.initId = 0 := by
    unfold strangerMet
    split
    · rfl
    · exact hinit
  rw [onStranger_eq hrole, blinkReply_eq]
  exact hmet

/-- Before the wait position an arrival transmits nothing (45_responder.md R240). -/
theorem arrival_txPending {b : State} (h : b.round.pos + 1 ≠ b.session.waitPos) :
    (arrival b).status.txPending = b.status.txPending := by
  obtain ⟨-, -, -, hpending⟩ := ((radioQuiet_stampPhase b).trans (radioQuiet_advance _)).trans (radioQuiet_rearm _)
  rw [arrival_eq, if_neg h, hpending]

/-- No position an arrival reaches is a wait position of 0 or at or beyond `NODE_COUNT`, unless both are 1 (45_responder.md R249). -/
theorem pos_succ_ne_waitPos {s : State} (h : s.Inv) (hrole : s.role = .resp)
    (hwait : s.session.waitPos = 0 ∨ s.session.nodeCount.toNat ≤ s.session.waitPos.toNat)
    (hone : ¬(s.session.nodeCount = 1 ∧ s.session.waitPos = 1)) {p : Byte}
    (hpos : p = 0 ∨ (p = s.round.pos ∧ s.round.pos.toNat < tgtCount s)) : p + 1 ≠ s.session.waitPos := by
  intro hp
  have hsucc := pos_succ_toNat h
  obtain ⟨-, -, -, -, ⟨-, hmin, -⟩, -, -, ⟨hcount, hsolo⟩, -⟩ := h
  have hroom := hcount hrole
  have hone' : ¬(s.session.nodeCount.toNat = 1 ∧ s.session.waitPos.toNat = 1) := fun ⟨h1, h2⟩ =>
    hone ⟨BitVec.eq_of_toNat_eq h1, BitVec.eq_of_toNat_eq h2⟩
  have hwait' : s.session.waitPos.toNat = 0 ∨ s.session.nodeCount.toNat ≤ s.session.waitPos.toNat :=
    hwait.imp_left (congrArg BitVec.toNat)
  have hnext : (p + 1).toNat = s.session.waitPos.toNat := congrArg _ hp
  rcases hpos with rfl | ⟨rfl, hlt⟩
  · have : (0 + 1 : Byte).toNat = 1 := rfl
    omega
  · rcases hroom with hroom | ⟨hnode, -⟩
    · omega
    · have hlen : tgtCount s ≤ 1 := hsolo hnode
      have hnode' : s.session.nodeCount.toNat = 1 := congrArg BitVec.toNat hnode
      omega

/-- Settles O48: by what the frame makes the responder send. -/
theorem unconfiguredResponderNeverRanges : Obligations.UnconfiguredResponderNeverRanges := by
  refine ⟨fun s t h hrole hnone hact hbefore hafter => ?_, fun s t h hrole hwait hone hact hbefore hafter => ?_⟩
  · have hroleTake : (take s).role = .resp := (take_role s).trans hrole
    have hnoneTake : (take s).session.initId = 0 := by rw [take_session, hnone]
    cases sends_of_sequencer h hrole hact hbefore hafter with
    | nothing hsame => simp [hsame, hbefore] at hafter
    | blink ht => exact ht ▸ ⟨onStranger_txKind hroleTake, onStranger_initId hroleTake hnoneTake⟩
    | arrival b _ hinit => exact absurd hnoneTake hinit
  · have hroleTake : (take s).role = .resp := (take_role s).trans hrole
    cases sends_of_sequencer h hrole hact hbefore hafter with
    | nothing hsame => simp [hsame, hbefore] at hafter
    | blink ht => exact ht ▸ onStranger_txKind hroleTake
    | arrival b ht _ hsession hpending hpos =>
      have hturn : b.round.pos + 1 ≠ b.session.waitPos := by
        rw [hsession]
        exact pos_succ_ne_waitPos (inv_take h) hroleTake (by rwa [take_session]) (by rwa [take_session]) hpos
      rw [ht, arrival_txPending hturn, hpending, take_status] at hafter
      simp [hbefore] at hafter

end Sys2Proof.Machine
end

section
/-! PROOFS. The responder's step and the coordinator's state (45_responder.md R245): each part of the step commutes with an exchange of
the registry, `COORD_STATE`, `BACKOFF` and the coordinator's timestamps for any others. -/

namespace Sys2Proof.Machine

/-- The state that is the coordinator's own: the registry, its `STATUS` fields and its timestamps (42_registry.md R164). -/
structure CoordView where
  registry : List Peer
  coordState : CoordState
  backoff : Bool
  txPoll : Stamp
  txRange : Stamp
  lastRx : Stamp

/-- The state with the coordinator's own exchanged. -/
def graft (w : CoordView) (s : State) : State :=
  { s with
    registry := w.registry
    status := { s.status with coordState := w.coordState, backoff := w.backoff }
    stamps := { s.stamps with txPoll := w.txPoll, txRange := w.txRange, lastRx := w.lastRx } }

/-- The coordinator's own state in `s`. -/
def coordView (s : State) : CoordView :=
  { registry := s.registry, coordState := s.status.coordState, backoff := s.status.backoff, txPoll := s.stamps.txPoll
    txRange := s.stamps.txRange, lastRx := s.stamps.lastRx }

theorem graft_coordView (s : State) : graft (coordView s) s = s := rfl

/-- A choice that does not depend on the coordinator's state commutes with the exchange where both branches do. -/
theorem ite_graft {w : CoordView} {p : Prop} [Decidable p] {a b a' b' : State} (ha : a' = graft w a) (hb : b' = graft w b) :
    (if p then a' else b') = graft w (if p then a else b) := by
  rw [apply_ite (graft w), ha, hb]

section
variable (w : CoordView) (s : State)

/-! ## The parts of the step -/

theorem rearm_graft : rearm (graft w s) = graft w (rearm s) := rfl

theorem roundReset_graft : roundReset (graft w s) = graft w (roundReset s) := rfl

theorem recordAbort_graft (c : AbortCause) (p : Option Byte) :
    recordAbort c p (graft w s) = graft w (recordAbort c p s) := rfl

theorem blinkReply_graft : blinkReply (graft w s) = graft w (blinkReply s) := rfl

theorem take_graft : take (graft w s) = graft w (take s) := ite_graft rfl rfl

theorem stampPhase_graft : stampPhase (graft w s) = graft w (stampPhase s) := ite_graft rfl rfl

/-- A reply embeds the responder's timestamps only (45_responder.md R243). -/
theorem reply_graft : reply (graft w s) = graft w (reply s) := rfl

theorem advance_graft : advance (graft w s) = graft w (advance s) := by
  rw [advance_eq, advance_eq]
  rfl

theorem arrival_graft : arrival (graft w s) = graft w (arrival s) := by
  rw [arrival_eq, arrival_eq, stampPhase_graft, reply_graft, advance_graft, advance_graft]
  exact ite_graft rfl (rearm_graft w _)

/-! ## The frames, in role RESP -/

theorem onConfig_graft : onConfig (graft w s) = graft w (onConfig s) := by
  have haccepted : acceptedConfig (graft w s) = acceptedConfig s := rfl
  unfold onConfig
  rw [haccepted]
  cases acceptedConfig s with
  | none => rfl
  | some t =>
    have hrecord : (if respActive s then recordAbort .respConfig none (graft w s) else graft w s)
        = graft w (if respActive s then recordAbort .respConfig none s else s) :=
      ite_graft (recordAbort_graft w s _ _) rfl
    exact congrArg (fun u => rearm (deriveSession t.assigned t.init t.total u)) hrecord

section
variable {s} (hrole : s.role = .resp)
include hrole

/-- Outside role COORD an abort leaves `COORD_STATE` and does not read it (60_exceptions.md R266). -/
theorem abort_graft (c : AbortCause) : abort c none (graft w s) = graft w (abort c none s) := by
  rw [abort_eq_respAborted c s hrole, abort_eq_respAborted c (graft w s) hrole]
  rfl

theorem mismatch_graft : mismatch (graft w s) = graft w (mismatch s) := by
  unfold mismatch
  rw [abort_graft w hrole]
  rfl

theorem onReset_graft : onReset (graft w s) = graft w (onReset s) := by
  have habort : (if respActive s then abort .respResetFrame none (graft w s) else graft w s)
      = graft w (if respActive s then abort .respResetFrame none s else s) := ite_graft (abort_graft w hrole _) rfl
  exact congrArg (fun u => rearm (roundReset u)) habort

theorem onStranger_graft : onStranger (graft w s) = graft w (onStranger s) := by
  unfold onStranger
  rw [← blinkReply_graft]
  exact congrArg blinkReply (ite_graft (mismatch_graft w hrole) (roundReset_graft w s))

theorem onInitiatorPoll_graft : onInitiatorPoll (graft w s) = graft w (onInitiatorPoll s) := by
  unfold onInitiatorPoll
  rw [← arrival_graft]
  exact congrArg arrival (ite_graft (abort_graft w hrole _) rfl)

theorem onInitiatorRange_graft : onInitiatorRange (graft w s) = graft w (onInitiatorRange s) := by
  unfold onInitiatorRange
  refine ite_graft (arrival_graft w s) ?_
  rw [← rearm_graft]
  exact congrArg rearm (ite_graft (abort_graft w hrole _) rfl)

theorem onReplyFrame_graft (c : FuncCode) : onReplyFrame c (graft w s) = graft w (onReplyFrame c s) := by
  unfold onReplyFrame
  exact ite_graft (rearm_graft w s) <| ite_graft (congrArg rearm (mismatch_graft w hrole)) <|
    ite_graft (congrArg rearm (abort_graft w hrole _)) (arrival_graft w s)

theorem onFrame_graft : onFrame (graft w s) = graft w (onFrame s) := by
  have hcode : fcode (graft w s).mem = fcode s.mem := rfl
  unfold onFrame
  rw [hcode]
  cases funcCodeOf (fcode s.mem) with
  | none => rfl
  | some c =>
    cases c with
    | config => exact onConfig_graft w s
    | reset => exact onReset_graft w hrole
    | poll => exact ite_graft (onStranger_graft w hrole) (onInitiatorPoll_graft w hrole)
    | range => exact ite_graft (onStranger_graft w hrole) (onInitiatorRange_graft w hrole)
    | ack => exact onReplyFrame_graft w hrole .ack
    | final => exact onReplyFrame_graft w hrole .final
    | blink => rfl
    | bcast => rfl

theorem respMessage_graft : respMessage (graft w s) = graft w (respMessage s) := by
  have htake : (take s).role = .resp := (take_role s).trans hrole
  unfold respMessage
  rw [take_graft]
  exact ite_graft (onFrame_graft w htake) rfl

theorem respStep_graft : respStep (graft w s) = (respStep s).map (graft w) := by
  unfold respStep
  rw [respMessage_graft w hrole]
  simp only [apply_ite (Option.map (graft w))]
  rfl

theorem sequencerStep_graft : sequencerStep (graft w s) = (sequencerStep s).map (graft w) := by
  have hstep : ∀ t : State, t.role = .resp → sequencerStep t = if t.enable then respStep t else none := fun t ht => by
    rw [sequencerStep, ht]
  rw [hstep s hrole, hstep (graft w s) hrole, respStep_graft w hrole]
  rw [apply_ite (Option.map (graft w))]
  rfl

end

end

/-- Settles O47: the step commutes with every exchange; with the exchange of the coordinator's state for itself it keeps that state. -/
theorem responderNeverUsesTheRegistry : Obligations.ResponderNeverUsesTheRegistry := by
  intro s r c b x y z hrole g
  refine ⟨sequencerStep_graft ⟨r, c, b, x, y, z⟩ hrole, fun t hstep => ?_⟩
  have hkept : t = graft (coordView s) t := by
    have hself := sequencerStep_graft (coordView s) hrole
    rw [graft_coordView, hstep] at hself
    exact Option.some_inj.mp hself
  rw [hkept]
  exact ⟨rfl, rfl, rfl, rfl, rfl, rfl⟩

end Sys2Proof.Machine
end

section
/-! PROOFS. Every action answers a next state, and how a command ends (60_exceptions.md R260, R263; 70_reset_and_hazards.md R286, R306):
refused, with nothing but `CMD_STATUS` changed, or finished. -/

namespace Sys2Proof.Machine

/-! ## How a command ends -/

/-- The two ways a command with opcode `opc` ends in the state `s`. A finished one leaves an id in `RES_ID` only if it is REG_CONTAINS,
REG_ADD or SEND_CONFIG. -/
inductive CommandEnd (opc : Byte) (s : State) : State → Prop where
  | refused (code : ErrCode) : CommandEnd opc s (refuse opc code s)
  | finished (u : State) (ok : Bool) (resId : Byte) (hid : resId ≠ 0 → opc = 0x10 ∨ opc = 0x11 ∨ opc = 0x21) :
      CommandEnd opc s (finish opc ok resId u)

/-- The answer `r` to a command with opcode `opc` is a next state, in which the command has ended. -/
def Answered (opc : Byte) (s : State) (r : Result) : Prop := ∃ t, r = .next t ∧ CommandEnd opc s t

theorem commandEnd_of_noId {opc : Byte} {s : State} (u : State) (ok : Bool) : CommandEnd opc s (finish opc ok 0 u) :=
  .finished u ok 0 fun h => absurd rfl h

theorem answered_refuse (opc : Byte) (code : ErrCode) (s : State) : Answered opc s (.next (refuse opc code s)) :=
  ⟨_, rfl, .refused code⟩

theorem answered_inRoleNone {opc : Byte} {run : State → State} {s : State} (hrun : CommandEnd opc s (run s)) :
    Answered opc s (inRoleNone opc run s) := by
  rcases inRoleNone_cases opc run s with ⟨-, e⟩ | ⟨-, e⟩ <;> rw [e]
  · exact ⟨_, rfl, hrun⟩
  · exact answered_refuse _ _ _

theorem answered_unlessCoordBusy {opc : Byte} {run : State → State} {s : State} (hrun : CommandEnd opc s (run s)) :
    Answered opc s (unlessCoordBusy opc run s) := by
  rcases unlessCoordBusy_cases opc run s with ⟨-, e⟩ | ⟨-, e⟩ <;> rw [e]
  · exact ⟨_, rfl, hrun⟩
  · exact answered_refuse _ _ _

theorem answered_execSendConfig (slot : Byte) (s : State) : Answered 0x21 s (execSendConfig slot s) := by
  refine ⟨_, rfl, ?_⟩
  split
  · exact .refused _
  split
  · exact .refused _
  split
  · exact .refused _
  · exact .finished _ _ _ fun _ => .inr (.inr rfl)

theorem answered_execTxSend (flags : Byte) (s : State) : Answered 0x22 s (execTxSend flags s) := by
  unfold execTxSend
  split
  · refine answered_inRoleNone ?_
    split
    · exact .refused _
    split
    · exact .refused _
    · exact commandEnd_of_noId _ _
  · exact answered_refuse _ _ _

theorem answered_execRxEnable (flags : Byte) (s : State) : Answered 0x23 s (execRxEnable flags s) := by
  unfold execRxEnable
  split
  · refine answered_inRoleNone ?_
    split
    · exact .refused _
    · exact commandEnd_of_noId _ _
  · exact answered_refuse _ _ _

/-- Every command answers a next state, refused or finished. -/
theorem answered_exec (i : Instr) (s : State) : Answered i.opcode s (exec i s) := by
  cases i with
  | buildBlink => exact answered_inRoleNone (commandEnd_of_noId _ _)
  | buildBcast => exact answered_inRoleNone (commandEnd_of_noId _ _)
  | buildConfig init assigned total => exact answered_inRoleNone (commandEnd_of_noId _ _)
  | buildRanging fc src =>
    rw [exec, execBuildRanging]
    refine answered_inRoleNone ?_
    split
    · exact commandEnd_of_noId _ _
    · exact .refused _
  | parse =>
    rw [exec, execParse]
    refine answered_inRoleNone ?_
    split <;> exact commandEnd_of_noId _ _
  | parseConfig =>
    rw [exec, execParseConfig]
    refine answered_inRoleNone ?_
    split <;> exact commandEnd_of_noId _ _
  | regContains =>
    refine ⟨_, rfl, ?_⟩
    split
    · exact .finished _ _ _ fun _ => .inl rfl
    · exact commandEnd_of_noId _ _
  | regAdd =>
    rw [exec, execRegAdd]
    refine answered_unlessCoordBusy ?_
    split
    · exact .finished _ _ _ fun _ => .inr (.inl rfl)
    · exact commandEnd_of_noId _ _
  | regRemove id =>
    rw [exec, execRegRemove]
    exact answered_unlessCoordBusy (commandEnd_of_noId _ _)
  | regUpdateId id =>
    rw [exec, execRegUpdateId]
    refine answered_unlessCoordBusy ?_
    split <;> exact commandEnd_of_noId _ _
  | regSetDist id =>
    rw [exec, execRegSetDist]
    exact answered_unlessCoordBusy (commandEnd_of_noId _ _)
  | sessionSet own init total =>
    rw [exec, execSessionSet]
    refine answered_unlessCoordBusy ?_
    split
    · exact commandEnd_of_noId _ _
    · exact .refused _
  | sendConfig slot => exact answered_execSendConfig slot s
  | txSend flags => exact answered_execTxSend flags s
  | rxEnable flags => exact answered_execRxEnable flags s

/-- A word written to `CMD` is answered under its own opcode, whether or not it decodes (20_memory.md R71). -/
theorem answered_runCommand (w : Word) (s : State) : Answered (fieldOpc w) s (runCommand w s) := by
  rcases runCommand_cases w s with ⟨i, hi, e⟩ | ⟨-, e⟩ | ⟨-, e⟩ <;> rw [e]
  · rw [← opcode_of_decode hi]
    exact answered_exec i s
  · exact answered_refuse _ _ _
  · exact answered_refuse _ _ _

theorem commandEnd_of_act {w : Word} {s t : State} (h : act (.host (.write 4 0x00C w)) s = .next t) :
    CommandEnd (w.extractLsb' 0 8) s t := by
  obtain ⟨u, e, hend⟩ := answered_runCommand w s
  rw [act_write_cmd, e] at h
  cases h
  exact hend

/-! ## What a command leaves alone -/

/-- From `s` to `t` no register the host alone writes changed, no timestamp, not the abort record and no byte outside `CBUF`. -/
structure CommandFrame (s t : State) : Prop where
  params : t.params = s.params
  enable : t.enable = s.enable
  role : t.role = s.role
  irqEn : t.irqEn = s.irqEn
  args : t.args = s.args
  eui : t.eui = s.eui
  seq : t.seq = s.seq
  timing : t.timing = s.timing
  distLimit : t.distLimit = s.distLimit
  lastAbort : t.lastAbort = s.lastAbort
  stamps : t.stamps = s.stamps
  inlen : t.inlen = s.inlen
  readData : t.readData = s.readData
  bytes : ∀ a, (a < 0x180 ∨ 0x200 ≤ a) → t.mem.read a = s.mem.read a

theorem commandFrame_storeC (f : List Byte) (s : State) : CommandFrame s (storeC f s) := by
  constructor
  case bytes => exact fun a ha => read_storeC_outside f s (by unfold cbufBase bufSize; omega)
  all_goals rfl

theorem commandFrame_sendConfig (slot : Byte) (s : State) : CommandFrame s (sendConfig slot s) := by
  obtain ⟨f, r, hstored, hkept⟩ : ∃ f r, (sendConfig slot s).mem = (storeC f r).mem ∧ r.mem = s.mem := ⟨_, _, rfl, rfl⟩
  constructor
  case bytes =>
    intro a ha
    rw [hstored, (commandFrame_storeC f r).bytes a ha, hkept]
  all_goals rfl

theorem commandFrame_commandEffect {s u : State} (h : CommandEffect s u) : CommandFrame s u := by
  cases h with
  | store f _ => exact commandFrame_storeC f s
  | sendConfig slot => exact commandFrame_sendConfig slot s
  | _ => constructor <;> simp

theorem commanded_of_runCommand {w : Word} {s t : State} (h : runCommand w s = .next t) : Commanded s t := by
  rcases runCommand_cases w s with ⟨i, -, e⟩ | ⟨-, e⟩ | ⟨-, e⟩ <;> rw [e] at h
  · exact commanded_of_exec h
  · cases h
    exact commanded_refuse _ _ _
  · cases h
    exact commanded_refuse _ _ _

theorem commandFrame_of_act {w : Word} {s t : State} (h : act (.host (.write 4 0x00C w)) s = .next t) : CommandFrame s t := by
  obtain ⟨u, c, heffect, rfl⟩ := commanded_of_runCommand h
  exact { commandFrame_commandEffect heffect with }

/-! ## Host accesses -/

theorem hostWrite_answers (size off : Nat) (v : Word) (s : State) : ∃ t, hostWrite size off v s = .next t := by
  rcases hostWrite_cases size off v s with ⟨-, e⟩ | ⟨-, -, e⟩ | ⟨-, -, e⟩ <;> rw [e]
  · exact ⟨_, rfl⟩
  · obtain ⟨t, e, -⟩ := answered_runCommand v s
    exact ⟨t, e⟩
  · exact ⟨_, rfl⟩

theorem hostAccess_answers (a : HostAccess) (s : State) : ∃ t, hostAccess a s = .next t := by
  cases a with
  | read size off => exact ⟨_, rfl⟩
  | write size off v => exact hostWrite_answers size off v s

theorem busAccess_answers (a : HostAccess) (s : State) : ∃ t, busAccess a s = .next t := by
  cases a with
  | read size addr =>
    unfold busAccess
    dsimp only
    split <;> exact ⟨_, rfl⟩
  | write size addr v =>
    unfold busAccess
    dsimp only
    split
    · exact hostWrite_answers _ _ v s
    · exact ⟨_, rfl⟩

theorem act_answers (a : Action) (s : State) : ∃ t, act a s = .next t := by
  cases a with
  | host a => exact hostAccess_answers a s
  | bus a => exact busAccess_answers a s
  | radio e => exact ⟨_, rfl⟩
  | sequencer => exact ⟨_, rfl⟩
  | backoffTimer => exact ⟨_, rfl⟩
  | blockReset => exact ⟨_, rfl⟩

/-! ## The statements -/

/-- Settles O8: only a command could have no next state, and every command is refused or finished. -/
theorem everyStepAnswersANextState : Obligations.EveryStepAnswersANextState :=
  ⟨act_answers, fun s => act_answers (nextAction s).1 (nextAction s).2⟩

/-- Settles O24: a finished command leaves `ERR` 0, and the interrupt output does not read `CMD_STATUS`. -/
theorem refusalChangesOnlyCmdStatus : Obligations.RefusalChangesOnlyCmdStatus := by
  intro w s t hact herr
  cases commandEnd_of_act hact with
  | refused code => exact ⟨rfl, rfl⟩
  | finished u ok resId hid => exact absurd rfl herr

/-- Settles O25: the outcome by how the command ends, the frame by its effect. -/
theorem commandOutcomeAndFrame : Obligations.CommandOutcomeAndFrame := by
  intro w s t hact
  have hopc : t.cmdStatus.opc = w.extractLsb' 0 8 := by
    cases commandEnd_of_act hact <;> rfl
  have hid : t.cmdStatus.resId ≠ 0 → t.cmdStatus.opc = 0x10 ∨ t.cmdStatus.opc = 0x11 ∨ t.cmdStatus.opc = 0x21 := by
    cases commandEnd_of_act hact with
    | refused code => exact fun h => absurd rfl h
    | finished u ok resId hid => exact hid
  have hframe := commandFrame_of_act hact
  exact ⟨hopc, hid, hframe.params, hframe.enable, hframe.role, hframe.irqEn, hframe.args, hframe.eui, hframe.seq,
    hframe.timing, hframe.distLimit, hframe.lastAbort, hframe.stamps, hframe.inlen, hframe.readData, hframe.bytes⟩

end Sys2Proof.Machine
end

section
/-! PROOFS. Radio events, the backoff timer and several nodes (60_exceptions.md R270 to R272, R276, R284): each event as the state it
leaves, written out once. -/

namespace Sys2Proof.Machine

/-! ## Radio events (60_exceptions.md R270 to R272) -/

/-- `INBUF` after the reception of `len` bytes: the bytes, unless the frame is longer than `FRAME_MAX`. -/
def capturedMem (bytes : List Byte) (len : Nat) (m : Memory) : Memory :=
  if len ≤ frameMax then m.store inbufBase bufSize (bytes.take len) else m

theorem onRxGood_eq (bytes : List Byte) (len : BitVec 16) (ts : Stamp) (s : State) :
    onRxGood bytes len ts s =
      { s with
        mem := capturedMem bytes len.toNat s.mem
        inlen := len
        stamps := { s.stamps with rx := ts }
        status := { s.status with msgPending := true, overrun := s.status.overrun || s.status.msgPending } } := by
  unfold onRxGood capturedMem
  cases hpend : s.status.msgPending <;> by_cases hlen : len.toNat ≤ frameMax <;> simp [hlen]

theorem capturedMem_of_oversized (bytes : List Byte) {len : Nat} (h : 127 < len) (m : Memory) : capturedMem bytes len m = m :=
  if_neg (by unfold frameMax; omega)

/-- A reception writes no byte outside `INBUF`. -/
theorem read_capturedMem_outside (bytes : List Byte) (len : Nat) (m : Memory) {a : Nat} (ha : a < 0x100 ∨ 0x180 ≤ a) :
    (capturedMem bytes len m).read a = m.read a := by
  unfold capturedMem
  split
  · rw [Memory.read_store, if_neg (by unfold inbufBase bufSize; omega)]
  · rfl

/-- The mailbox holds an accepted frame, zero-filled. -/
theorem read_capturedMem_inside {bytes : List Byte} (h : bytes.length ≤ 127) (m : Memory) {k : Nat} (hk : k < 128) :
    (capturedMem bytes bytes.length m).read (0x100 + k) = bytes.getD k 0 := by
  have hin : inbufBase ≤ 0x100 + k ∧ 0x100 + k < inbufBase + bufSize := by unfold inbufBase bufSize; omega
  rw [capturedMem, if_pos (show bytes.length ≤ frameMax from h), List.take_length, Memory.read_store, if_pos hin]
  exact congrArg (bytes.getD · 0) (Nat.add_sub_cancel_left 0x100 k)

theorem onRxErr_eq (c : ErrCause) (s : State) :
    onRxErr c s =
      { s with
        status :=
          { s.status with errPending := true, errCause := c, overrun := s.status.overrun || s.status.errPending } } := by
  unfold onRxErr
  cases hpend : s.status.errPending <;> simp

theorem latchTx_eq (kind : TxKind) (ts : Stamp) (v : Stamps) :
    latchTx kind ts v =
      { v with
        tx := ts
        txPoll := if kind = .poll then ts else v.txPoll
        txRange := if kind = .range then ts else v.txRange
        ackTx := if kind = .ack then ts else v.ackTx } := by
  cases kind <;> rfl

/-- Settles O49: the event's next state, and the bytes its store leaves. -/
theorem receptionIsCaptured : Obligations.ReceptionIsCaptured := by
  refine ⟨fun bytes len ts s hlen => ⟨_, congrArg Host.Outcome.next (onRxGood_eq bytes len ts s), rfl, fun hover => ?_,
    fun hle k hk => ?_, fun a ha => ?_⟩, fun c s => ?_⟩
  · exact capturedMem_of_oversized bytes hover s.mem
  · rw [← hlen] at hle ⊢
    exact read_capturedMem_inside hle s.mem hk
  · exact read_capturedMem_outside bytes len.toNat s.mem ha
  · cases c <;> exact congrArg Host.Outcome.next (onRxErr_eq _ s)

/-- Settles O50: by whether a transmission is outstanding. -/
theorem transmitDoneIsLatched : Obligations.TransmitDoneIsLatched := by
  intro ts s
  refine ⟨fun hstray => ?_, fun hpend => ?_⟩
  · rw [act, captureEvent, onTxDone, if_neg (by simp [hstray])]
  · rw [act, captureEvent, onTxDone, if_pos hpend, latchTx_eq]

/-! ## The backoff timer (60_exceptions.md R276) -/

theorem backoffStep_getD (s : State) : (backoffStep s).getD s = { s with status := { s.status with backoff := false } } := by
  unfold backoffStep
  split
  · rfl
  next h =>
    have hoff : s.status.backoff = false := by simpa using h
    rw [← hoff]
    rfl

theorem keepsCoordState_drainMessage (s : State) : KeepsCoordState s (drainMessage s) := by
  unfold drainMessage
  dsimp only
  split
  · exact (keepsCoordState_regAdd _ _).trans (keepsCoordState_take s)
  · exact keepsCoordState_take s

theorem drainMessage_out (s : State) : (drainMessage s).out = s.out := by
  unfold drainMessage
  dsimp only
  split <;> simp

/-- A step in IDLE during backoff drains a message or an error and asks the radio for nothing (10_state.md R42). -/
theorem idleStep_of_backoff {s t : State} (hbackoff : s.status.backoff = true) (h : idleStep s = some t) :
    t.out = s.out ∧ KeepsCoordState s t := by
  obtain ⟨-, ⟨-, rfl⟩ | ⟨-, -, rfl⟩ | ⟨-, -, hfree, -, -⟩⟩ := idleStep_cases h
  · exact ⟨drainMessage_out s, keepsCoordState_drainMessage s⟩
  · exact ⟨rfl, rfl⟩
  · rw [hbackoff] at hfree
    nomatch hfree

/-- Settles O51: the timer clears the flag, and of the coordinator's steps in IDLE only the start of a round, which the flag bars, would
transmit. -/
theorem backoffTimerEndsTheBackoff : Obligations.BackoffTimerEndsTheBackoff := by
  refine fun s => ⟨congrArg Host.Outcome.next (backoffStep_getD s), fun hrole hidle hbackoff t hact => ?_⟩
  cases hact
  cases hstep : sequencerStep s with
  | none => exact ⟨rfl, hidle⟩
  | some u =>
    obtain ⟨-, ⟨-, hcoord⟩ | ⟨hresp, -⟩⟩ := sequencerStep_cases hstep
    · rw [coordStep, hidle] at hcoord
      obtain ⟨hout, hkeep⟩ := idleStep_of_backoff hbackoff hcoord
      exact ⟨hout, hkeep.trans hidle⟩
    · rw [hrole] at hresp
      nomatch hresp

/-! ## Several nodes (60_exceptions.md R284) -/

theorem netStep_own_self {y : System} {n : Nat} {s : State} (h : y.nodes[n]? = some s) :
    (netStep (.own n) y).nodes[n]? = some (nextOr s (step s)) := by
  simp [netStep, h]

theorem netStep_own_other (y : System) {n m : Nat} (h : m ≠ n) : (netStep (.own n) y).nodes[m]? = y.nodes[m]? := by
  simp [netStep, h.symm]

theorem sentFrame_of_tx {y : System} {src k : Nat} {s : State} {f : List Byte} {md : TxMode} {ra : Bool} {tmo : Word}
    (hs : y.nodes[src]? = some s) (hk : (s.outBefore ++ s.out)[k]? = some (.tx f md ra tmo)) : sentFrame y src k = some f := by
  rw [sentFrame, hs, Option.bind_some, radioLog, hk]
  rfl

theorem netStep_deliver {y : System} {src k dst : Nat} {f : List Byte} (hsent : sentFrame y src k = some f) (hne : src ≠ dst)
    (ts : Stamp) : netStep (.deliver src k dst ts) y = { nodes := y.nodes.modify dst (receive f ts) } := by
  rw [netStep, hsent]
  exact if_neg hne

/-- Settles O60: both events modify one position of the list of nodes, a delivery by the reception of the sent frame. -/
theorem nodesMeetOnlyThroughFrames : Obligations.NodesMeetOnlyThroughFrames := by
  refine ⟨fun y n m hm => netStep_own_other y hm, fun y n s t hs hstep => ?_,
    fun y src k dst ts s r f md ra tmo hs hk hr hne => ⟨receive f ts r, rfl, ?_, fun m hm => ?_⟩⟩
  · rw [netStep_own_self hs, hstep]
    rfl
  · rw [netStep_deliver (sentFrame_of_tx hs hk) hne]
    simp [hr]
  · rw [netStep_deliver (sentFrame_of_tx hs hk) hne]
    simp [hm.symm]

end Sys2Proof.Machine
end
